-- ==== Sys2Proof/Word.lean ====
section
/-! DEFINITION. The words of the sensor-link block: the byte of the link and the numbers. -/

namespace Sys2Proof

/-- A byte: 8 bits, bit 7 the most significant (rule R8). -/
abbrev Byte := BitVec 8

/-- The 16-bit unsigned wire fields `arg` and `value` (rules R52, R76, R77). -/
abbrev Half := BitVec 16

/-- A number of the decided instantiation of `Num`, as its binary32 bit pattern (rule R7, decision D6, log 1). -/
abbrev Num32 := BitVec 32

/-- A value of the spec's number type `Num` (rule R7). Which type that is, the configuration says: binary32 patterns, exact
rational numbers, or another type, of which the model knows no more than that its values can be numbered (log 1). -/
inductive Number where
  | b32 (x : Num32)
  | exact (q : ℚ)
  | other (code : Nat)
  deriving DecidableEq, Repr, Inhabited

/-- The pattern of a binary32 number. A value of another type is never one where binary32 is configured (log 1). -/
def Number.toB32 : Number → Num32
  | .b32 x => x
  | .exact _ => 0
  | .other _ => 0

/-- The rational of an exact number, likewise. -/
def Number.toRat : Number → ℚ
  | .b32 _ => 0
  | .exact q => q
  | .other _ => 0

end Sys2Proof
end

