-- ==== Sys2Proof/Config.lean ====
section
/-! DEFINITION. The configuration of the block (Table P of rule R6), the numerics record of rule R7, the
constants an implementation fixes, and the free values: constants with no body, so nothing can be proved of them. -/

namespace Sys2Proof

/-- The sensor kinds, in the order of the enumeration (rule R21). -/
inductive Kind where
  | temp
  | ph
  | tds
  deriving DecidableEq, Repr

/-- The commands, in the order of the enumeration (rule R75). -/
inductive Command where
  | reset
  | calibrate
  | calLow
  | calMid
  | calHigh
  | setMode
  deriving DecidableEq, Repr

/-- The two PH models `ph_mode` selects between (rule R29). -/
inductive PhMode where
  | basic
  | advanced
  deriving DecidableEq, Repr

/-- `FILTER(s)`: no filter, moving average, or median of the window (rules R24, R118). -/
inductive FilterSel where
  | none
  | mean
  | median
  deriving DecidableEq, Repr

/-- One thing for each sensor kind. -/
structure PerKind (α : Type) where
  temp : α
  ph : α
  tds : α
  deriving DecidableEq, Repr

namespace PerKind

/-- The entry of kind `k`. -/
def get {α : Type} (p : PerKind α) (k : Kind) : α :=
  match k with
  | .temp => p.temp
  | .ph => p.ph
  | .tds => p.tds

/-- `p` with the entry of kind `k` replaced. -/
def set {α : Type} (p : PerKind α) (k : Kind) (x : α) : PerKind α :=
  match k with
  | .temp => { p with temp := x }
  | .ph => { p with ph := x }
  | .tds => { p with tds := x }

end PerKind

/-- One thing for each command. -/
structure PerCommand (α : Type) where
  reset : α
  calibrate : α
  calLow : α
  calMid : α
  calHigh : α
  setMode : α
  deriving DecidableEq, Repr

/-- The byte values of the wire protocol: `PREFIX`, `KIND_CODE`, `CMD_CODE` (rules R73 to R75). -/
structure Codes where
  pfx : Byte
  kind : PerKind Byte
  cmd : PerCommand Byte
  deriving DecidableEq, Repr

/-- The default codes (the spec's own decisions D3, D4, D5, log 19), the ones `opcode_table.json` is computed with (rule R86). -/
def Codes.default : Codes where
  pfx := 0x53
  kind := { temp := 0x00, ph := 0x01, tds := 0x02 }
  cmd :=
    { reset := 0x00, calibrate := 0x01, calLow := 0x02, calMid := 0x03, calHigh := 0x04, setMode := 0x05 }

/-- The construction-time choices of one sensor: `PRESENT(s)`, `FILTER(s)`, `C(s)`, `INIT(s)` (Table P). -/
structure SensorCfg where
  present : Bool
  filter : FilterSel
  cap : Nat
  initial : Number
  deriving DecidableEq, Repr

/-- The constants of the PH model: `PH_K`, `PH_INIT_MODE`, `PH_DEF_LOW`, `PH_DEF_MID`, `PH_DEF_HIGH` (Table P). -/
structure PhCfg where
  k : Number
  initMode : PhMode
  defLow : Number
  defMid : Number
  defHigh : Number
  deriving DecidableEq, Repr

/-- The constants of the TDS model, over any carrier (Table P, rule R35): the coefficients `TDS_A3` to `TDS_A0`,
`TDS_TEMP_COEFF`, `TDS_FACTOR` and `TDS_DEF_PROBE`. -/
structure TdsCfg (α : Type) where
  a3 : α
  a2 : α
  a1 : α
  a0 : α
  tempCoeff : α
  factor : α
  defProbe : α
  deriving DecidableEq, Repr

/-- The constants carried over to another carrier. -/
def TdsCfg.map {α β : Type} (f : α → β) (c : TdsCfg α) : TdsCfg β where
  a3 := f c.a3
  a2 := f c.a2
  a1 := f c.a1
  a0 := f c.a0
  tempCoeff := f c.tempCoeff
  factor := f c.factor
  defProbe := f c.defProbe

/-- Table P's row `Num and its operations`: which number type and which numerics record of rule R7 the block is
configured with. State is plain data, so the configuration names them: the decided binary32 (decision D6), the exact
rational numbers, or a type and a record of which nothing is known but that the operations are total functions (log 1). -/
inductive NumSel where
  | binary32
  | exact
  | other (n : Nat)
  deriving DecidableEq, Repr

/-- A value as one of the configured number type: itself if it is one. -/
def NumSel.cast (m : NumSel) (x : Number) : Number :=
  match m with
  | .binary32 => .b32 x.toB32
  | .exact => .exact x.toRat
  | .other _ => x

/-- Whether `x` is a value of the configured number type. -/
def NumSel.holds (m : NumSel) (x : Number) : Bool :=
  match m, x with
  | .binary32, .b32 _ => true
  | .binary32, .exact _ => false
  | .binary32, .other _ => false
  | .exact, .b32 _ => false
  | .exact, .exact _ => true
  | .exact, .other _ => false
  | .other _, _ => true

/-- Table P's row `Q10`: the conversion of the chosen record (for the first two rule R77's, decision D29), or one of which
nothing is known but that it is a total function (log 1). -/
inductive Q10Sel where
  | ofNum
  | other (n : Nat)
  deriving DecidableEq, Repr

/-- The configuration record `Cfg` of rule R6: fixed at construction, never changed. -/
structure Cfg where
  codes : Codes
  sensor : PerKind SensorCfg
  ph : PhCfg
  tds : TdsCfg Number
  num : NumSel
  q10 : Q10Sel
  deriving DecidableEq, Repr

/-- The four arithmetic operations of rule R7. -/
inductive ArithOp where
  | add
  | sub
  | mul
  | div
  deriving DecidableEq, Repr

namespace Config

/-- The numerics record of rule R7 over a carrier `α`: the named constants, `ofNat`, the operations `+f -f *f /f`,
the comparison `<f`, and `Q10`. Nothing is assumed of them but that each is a total function of its operands.
Every formula of the block is written over this record, so that it can be read over exact numbers too. -/
structure Numerics (α : Type) where
  zero : α
  one : α
  two : α
  three : α
  seven : α
  ten : α
  twentyFive : α
  ofNat : Nat → α
  add : α → α → α
  sub : α → α → α
  mul : α → α → α
  div : α → α → α
  lt : α → α → Bool
  q10 : α → Half
  deriving Inhabited

/-- `a >f b` is `b <f a` (rule R7). -/
def Numerics.gt {α : Type} (N : Numerics α) (a b : α) : Bool := N.lt b a

/-- Whether `<f` compares `x` and `y` either way. -/
def Numerics.related {α : Type} (N : Numerics α) (x y : α) : Bool := N.lt x y || N.lt y x

/-- A number that shows `<f` to be no order of the type: 0 and 1 compare, whichever is the less, and `x` compares with
neither. Where `<f` is an order there is no such number; under IEEE numerics these are the NaNs. It is said with the
record's own operations, since rule R7 lets the machine use no others. -/
def Numerics.unordered {α : Type} (N : Numerics α) (x : α) : Bool :=
  N.related N.zero N.one && !N.related x N.zero && !N.related x N.one

/-- Free value. `PH_K`, an OPEN parameter of Table P (log 9). -/
opaque phK : Num32
/-- Free value. `PH_DEF_LOW`, an OPEN parameter of Table P (log 9). -/
opaque phDefLow : Num32
/-- Free value. `PH_DEF_MID`, an OPEN parameter of Table P (log 9). -/
opaque phDefMid : Num32
/-- Free value. `PH_DEF_HIGH`, an OPEN parameter of Table P (log 9). -/
opaque phDefHigh : Num32
/-- Free value. `TDS_A3`, an OPEN parameter of Table P (log 9). -/
opaque tdsA3 : Num32
/-- Free value. `TDS_A2`, an OPEN parameter of Table P (log 9). -/
opaque tdsA2 : Num32
/-- Free value. `TDS_A1`, an OPEN parameter of Table P (log 9). -/
opaque tdsA1 : Num32
/-- Free value. `TDS_A0`, an OPEN parameter of Table P (log 9). -/
opaque tdsA0 : Num32
/-- Free value. `TDS_TEMP_COEFF`, an OPEN parameter of Table P (log 9). -/
opaque tdsTempCoeff : Num32
/-- Free value. `TDS_FACTOR`, an OPEN parameter of Table P (log 9). -/
opaque tdsFactor : Num32
/-- Free value. `TDS_DEF_PROBE`, an OPEN parameter of Table P (log 9). -/
opaque tdsDefProbe : Num32

/-- Free value. The sign and payload of the NaN an arithmetic operation answers (log 2). -/
opaque nanBits : ArithOp → Num32 → Num32 → BitVec 32

/-- Free value. The result of an operation of the calibration models on a division by zero, an overflow or a NaN:
"any value of type `Num`" (U3, rules R133, R134, R147, R153, R222; log 3). -/
opaque unspecified : ArithOp → Num32 → Num32 → Num32

/-- Free value. The result of a division by zero of the calibration models over the exact numbers (U3; log 3). -/
opaque unspecifiedExact : ArithOp → ℚ → ℚ → ℚ

/-- Free value. A median over a window that `<f` does not order, as one with a NaN, at draw `n` (U5, rules R114,
R119; log 5). -/
opaque medianNaN : Nat → Number

/-- Free choice. Where the element with `j` elements behind it stands among them, at draw `n`, before a sort that has
elements which compare equal and differ (U6, rule R114; log 5). -/
opaque tiePlace : Nat → Nat → Nat

/-- Free value. The numerics record number `n` (rule R7; log 1). -/
opaque otherNum : Nat → Numerics Number

/-- Free value. The conversion number `n`, other than the record's own (Table P's row `Q10`; log 1). -/
opaque otherQ10 : Nat → Number → Half

/-- Free value. The front end's answer to a `RAW(s)` request the environment has scripted no answer for, at draw
`n` (U11, rule R9; log 6). -/
opaque rawAnswer : Kind → Nat → Number

/-- A sensor with the defaults of Table P and the given filter: present (log 9), window of 8, initial value 0.0. -/
def defaultSensor (f : FilterSel) : SensorCfg where
  present := true
  filter := f
  cap := 8
  initial := .b32 0x00000000

/-- The configuration `State.reset` is built with: the defaults of Table P, its OPEN constants free, and
`PRESENT(s)` for all three kinds (DESIGN CHOICE, log 9). -/
def default : Cfg where
  codes := Codes.default
  sensor := { temp := defaultSensor .mean, ph := defaultSensor .median, tds := defaultSensor .mean }
  ph :=
    { k := .b32 phK, initMode := .basic, defLow := .b32 phDefLow, defMid := .b32 phDefMid, defHigh := .b32 phDefHigh }
  tds :=
    TdsCfg.map .b32
      { a3 := tdsA3, a2 := tdsA2, a1 := tdsA1, a0 := tdsA0, tempCoeff := tdsTempCoeff, factor := tdsFactor
        defProbe := tdsDefProbe }
  num := .binary32
  q10 := .ofNum

end Config

end Sys2Proof
end

