-- ==== Sys2Proof/Syntax.lean ====
section
/-! DEFINITION. The instructions: the 18 command frames and the 3 telemetry frames of `opcode_table.json` (rule R84). -/

namespace Sys2Proof

/-- A frame of the wire protocol as an instruction. A command frame carries its 16-bit argument `arg`, also where
the command ignores it (rules R76, R78); a telemetry frame carries its 16-bit `value` (rule R77). -/
inductive Instr where
  | tempReset (arg : Half)
  | tempCalibrate (arg : Half)
  | tempCalLow (arg : Half)
  | tempCalMid (arg : Half)
  | tempCalHigh (arg : Half)
  | tempSetMode (arg : Half)
  | phReset (arg : Half)
  | phCalibrate (arg : Half)
  | phCalLow (arg : Half)
  | phCalMid (arg : Half)
  | phCalHigh (arg : Half)
  | phSetMode (arg : Half)
  | tdsReset (arg : Half)
  | tdsCalibrate (arg : Half)
  | tdsCalLow (arg : Half)
  | tdsCalMid (arg : Half)
  | tdsCalHigh (arg : Half)
  | tdsSetMode (arg : Half)
  | tlmTemp (value : Half)
  | tlmPh (value : Half)
  | tlmTds (value : Half)
  deriving DecidableEq, Repr

end Sys2Proof
end

