-- ==== Sys2Proof/Decode.lean ====
section
/-! DEFINITION. The Frame Codec (rules R90 to R101), the decoder from bytes to instructions, the encoder, and the
reading of a word of `opcode_table.json`. -/

namespace Sys2Proof

/-- The three errors of the codec, a closed enumeration that exists only as the result of a decode (R190 to R193). -/
inductive FrameError where
  /-- R190: the sequence has the wrong length. -/
  | badLength
  /-- R191: right length, byte 0 is not `PREFIX`. -/
  | badPrefix
  /-- R192: right length and prefix, last byte is not the checksum. -/
  | checksumMismatch
  deriving DecidableEq, Repr

/-- The fields of an accepted command frame (rule R101). -/
structure Frame6 where
  kind : Byte
  command : Byte
  argHi : Byte
  argLo : Byte
  deriving DecidableEq, Repr

/-- The fields of an accepted telemetry frame (rule R101). -/
structure Frame5 where
  kind : Byte
  valueHi : Byte
  valueLo : Byte
  deriving DecidableEq, Repr

/-- The result of a decoder: a frame value or an error, never both (rule R96). -/
inductive FrameResult (α : Type) where
  | frame (f : α)
  | error (e : FrameError)
  deriving DecidableEq, Repr

/-- `CHECKSUM` (rule R90): the 8-bit wraparound sum from 0. -/
def checksum (bs : List Byte) : Byte := bs.foldl (· + ·) 0

/-- `ENC6` (rule R91): prefix, kind, the three payload bytes, the checksum of the first five. -/
def enc6 (pfx k p0 p1 p2 : Byte) : List Byte :=
  [pfx, k, p0, p1, p2, checksum [pfx, k, p0, p1, p2]]

/-- `ENC5` (rule R92): prefix, kind, the two value bytes, the checksum of the first four. -/
def enc5 (pfx k v0 v1 : Byte) : List Byte :=
  [pfx, k, v0, v1, checksum [pfx, k, v0, v1]]

/-- `DEC6` (rule R93): length, then prefix, then checksum (rule R95). -/
def dec6 (pfx : Byte) (bs : List Byte) : FrameResult Frame6 :=
  match bs with
  | [b0, b1, b2, b3, b4, b5] =>
    if b0 ≠ pfx then .error .badPrefix
    else if b5 ≠ checksum [b0, b1, b2, b3, b4] then .error .checksumMismatch
    else .frame { kind := b1, command := b2, argHi := b3, argLo := b4 }
  | _ => .error .badLength

/-- `DEC5` (rule R94): the same validator for the 5-byte shape. -/
def dec5 (pfx : Byte) (bs : List Byte) : FrameResult Frame5 :=
  match bs with
  | [b0, b1, b2, b3, b4] =>
    if b0 ≠ pfx then .error .badPrefix
    else if b4 ≠ checksum [b0, b1, b2, b3] then .error .checksumMismatch
    else .frame { kind := b1, valueHi := b2, valueLo := b3 }
  | _ => .error .badLength

/-- `valid(f)` for a sequence of the expected length `L` (rule R80): its prefix matches and its trailing byte is the
checksum of the bytes before it. -/
def validFrame (pfx : Byte) (L : Nat) (f : List Byte) : Bool :=
  f.length == L && f.head? == some pfx && f.getLast? == some (checksum f.dropLast)

/-- The 16-bit field of two wire bytes, most significant first (rules R52, R76). -/
def half (hi lo : Byte) : Half := hi ++ lo

/-- `v[15:8]` (rule R8). -/
def hiByte (v : Half) : Byte := v.extractLsb' 8 8

/-- `v[7:0]` (rule R8). -/
def loByte (v : Half) : Byte := v.extractLsb' 0 8

/-- `KIND_CODE(s)` (rule R74). -/
def Codes.kindCode (c : Codes) (k : Kind) : Byte := c.kind.get k

/-- `CMD_CODE(c)` (rule R75). -/
def Codes.cmdCode (c : Codes) (m : Command) : Byte :=
  match m with
  | .reset => c.cmd.reset
  | .calibrate => c.cmd.calibrate
  | .calLow => c.cmd.calLow
  | .calMid => c.cmd.calMid
  | .calHigh => c.cmd.calHigh
  | .setMode => c.cmd.setMode

/-- The kind a kind byte selects, if any (rules R51, R174). -/
def Codes.kindOf (c : Codes) (b : Byte) : Option Kind :=
  if b = c.kind.temp then some .temp
  else if b = c.kind.ph then some .ph
  else if b = c.kind.tds then some .tds
  else none

/-- The command a command byte selects, if any (rule R174). -/
def Codes.commandOf (c : Codes) (b : Byte) : Option Command :=
  if b = c.cmd.reset then some .reset
  else if b = c.cmd.calibrate then some .calibrate
  else if b = c.cmd.calLow then some .calLow
  else if b = c.cmd.calMid then some .calMid
  else if b = c.cmd.calHigh then some .calHigh
  else if b = c.cmd.setMode then some .setMode
  else none

/-- The command frame of a (kind, command) pair (rule R84, the 18 rows of format C6). -/
def Instr.ofCommand (k : Kind) (m : Command) (arg : Half) : Instr :=
  match k, m with
  | .temp, .reset => .tempReset arg
  | .temp, .calibrate => .tempCalibrate arg
  | .temp, .calLow => .tempCalLow arg
  | .temp, .calMid => .tempCalMid arg
  | .temp, .calHigh => .tempCalHigh arg
  | .temp, .setMode => .tempSetMode arg
  | .ph, .reset => .phReset arg
  | .ph, .calibrate => .phCalibrate arg
  | .ph, .calLow => .phCalLow arg
  | .ph, .calMid => .phCalMid arg
  | .ph, .calHigh => .phCalHigh arg
  | .ph, .setMode => .phSetMode arg
  | .tds, .reset => .tdsReset arg
  | .tds, .calibrate => .tdsCalibrate arg
  | .tds, .calLow => .tdsCalLow arg
  | .tds, .calMid => .tdsCalMid arg
  | .tds, .calHigh => .tdsCalHigh arg
  | .tds, .setMode => .tdsSetMode arg

/-- The telemetry frame of a kind (rule R84, the 3 rows of format T5). -/
def Instr.ofTelemetry (k : Kind) (value : Half) : Instr :=
  match k with
  | .temp => .tlmTemp value
  | .ph => .tlmPh value
  | .tds => .tlmTds value

/-- The instruction a kind byte, a command byte and an argument select, if the codes are assigned (rule R174). -/
def commandInstr (c : Codes) (kb cb : Byte) (arg : Half) : Option Instr :=
  match c.kindOf kb, c.commandOf cb with
  | some k, some m => some (Instr.ofCommand k m arg)
  | _, _ => none

/-- Why a byte sequence is no instruction. -/
inductive Reject where
  /-- The codec rejects it (rules R190 to R192). -/
  | invalid (e : FrameError)
  /-- A valid frame whose kind byte or command byte is unassigned (rule R81). -/
  | unassigned
  deriving DecidableEq, Repr

/-- The result of decoding a whole sequence as one instruction. -/
inductive Decoded where
  | instr (i : Instr)
  | reject (r : Reject)
  deriving DecidableEq, Repr

/-- A 6-byte sequence as a command instruction: `DEC6`, then the code maps (rules R93, R86). -/
def decodeCommand (c : Codes) (bs : List Byte) : Decoded :=
  match dec6 c.pfx bs with
  | .error e => .reject (.invalid e)
  | .frame f =>
    match commandInstr c f.kind f.command (half f.argHi f.argLo) with
    | some i => .instr i
    | none => .reject .unassigned

/-- A 5-byte sequence as a telemetry instruction: `DEC5`, then the kind map (rules R94, R86). -/
def decodeTelemetry (c : Codes) (bs : List Byte) : Decoded :=
  match dec5 c.pfx bs with
  | .error e => .reject (.invalid e)
  | .frame f =>
    match c.kindOf f.kind with
    | some k => .instr (Instr.ofTelemetry k (half f.valueHi f.valueLo))
    | none => .reject .unassigned

/-- The decoder, total on any bytes. The two formats are told apart by the length of the sequence (rules R70, R82). -/
def decode (c : Codes) (bs : List Byte) : Decoded :=
  if bs.length = 5 then decodeTelemetry c bs else decodeCommand c bs

/-- A command frame's bytes (rule R83): `ENC6(KIND_CODE, [CMD_CODE, arg[15:8], arg[7:0]])`. -/
def encodeCommand (c : Codes) (k : Kind) (m : Command) (arg : Half) : List Byte :=
  enc6 c.pfx (c.kindCode k) (c.cmdCode m) (hiByte arg) (loByte arg)

/-- A telemetry frame's bytes (rule R83): `ENC5(KIND_CODE, [value[15:8], value[7:0]])`. -/
def encodeTelemetry (c : Codes) (k : Kind) (value : Half) : List Byte :=
  enc5 c.pfx (c.kindCode k) (hiByte value) (loByte value)

/-- The encoder: the bytes of an instruction, in wire order (rule R83). -/
def encode (c : Codes) (i : Instr) : List Byte :=
  match i with
  | .tempReset a => encodeCommand c .temp .reset a
  | .tempCalibrate a => encodeCommand c .temp .calibrate a
  | .tempCalLow a => encodeCommand c .temp .calLow a
  | .tempCalMid a => encodeCommand c .temp .calMid a
  | .tempCalHigh a => encodeCommand c .temp .calHigh a
  | .tempSetMode a => encodeCommand c .temp .setMode a
  | .phReset a => encodeCommand c .ph .reset a
  | .phCalibrate a => encodeCommand c .ph .calibrate a
  | .phCalLow a => encodeCommand c .ph .calLow a
  | .phCalMid a => encodeCommand c .ph .calMid a
  | .phCalHigh a => encodeCommand c .ph .calHigh a
  | .phSetMode a => encodeCommand c .ph .setMode a
  | .tdsReset a => encodeCommand c .tds .reset a
  | .tdsCalibrate a => encodeCommand c .tds .calibrate a
  | .tdsCalLow a => encodeCommand c .tds .calLow a
  | .tdsCalMid a => encodeCommand c .tds .calMid a
  | .tdsCalHigh a => encodeCommand c .tds .calHigh a
  | .tdsSetMode a => encodeCommand c .tds .setMode a
  | .tlmTemp v => encodeTelemetry c .temp v
  | .tlmPh v => encodeTelemetry c .ph v
  | .tlmTds v => encodeTelemetry c .tds v

/-- The bytes of a word of the table. `opcode_table.json` reads a frame as one big-endian number (rule R86: byte 0 is
its most significant byte), `nbits` wide. -/
def wordBytes (nbits w : Nat) : List Byte :=
  (List.range (nbits / 8)).map fun i => BitVec.ofNat 8 (w / 2 ^ (nbits - 8 * (i + 1)))

/-- The bytes of a table word as a frame. A row's match and mask leave the checksum byte out, because it is a function
of the other bytes (rule R86): a word whose checksum byte is left 0 gets the checksum of its other bytes; any other
last byte is taken as it is (DESIGN CHOICE, log 13). -/
def tableFrame (nbits w : Nat) : List Byte :=
  let bs := wordBytes nbits w
  if bs.getLast? = some 0 then bs.dropLast ++ [checksum bs.dropLast] else bs

/-- The instruction the decoder reads from a word numbered as `opcode_table.json` numbers it, with the default codes
the table is computed with (rule R86, log 13). -/
def decodeTableWord (nbits w : Nat) : Option Instr :=
  match decode Codes.default (tableFrame nbits w) with
  | .instr i => some i
  | .reject _ => none

end Sys2Proof
end

