-- ==== Sys2Proof/Machine/Numerics.lean ====
section
/-! DEFINITION. The numerics of rule R7: IEEE 754 binary32 with round to nearest even (decision D6), exactly one
rounding an operation, evaluated with natural numbers, the numerics of the calibration models, in which what U3
leaves unspecified is a free value, and the numerics a configuration selects. -/

namespace Sys2Proof.Machine

open Sys2Proof

/-- The sign bit. -/
def fNeg (x : Num32) : Bool := decide (2 ^ 31 ≤ x.toNat)

/-- The 31 bits below the sign: they order the magnitudes. -/
def fMag (x : Num32) : Nat := x.toNat % 2 ^ 31

/-- The magnitude bits of an infinity. -/
def infMag : Nat := 0x7F800000

/-- A NaN: exponent field all ones, fraction not zero. -/
def fIsNaN (x : Num32) : Bool := decide (infMag < fMag x)

/-- An infinity of either sign. -/
def fIsInf (x : Num32) : Bool := decide (fMag x = infMag)

/-- A zero of either sign. -/
def fIsZero (x : Num32) : Bool := decide (fMag x = 0)

/-- Neither an infinity nor a NaN. -/
def fIsFinite (x : Num32) : Bool := decide (fMag x < infMag)

/-- The exponent of a finite number's last bit, counted from the smallest: 1 for zero and subnormal numbers. -/
def fExp (x : Num32) : Nat := max 1 (fMag x / 2 ^ 23)

/-- The integer significand of a finite number: its magnitude is `fSig x * 2 ^ fExp x / 2 ^ 150`. -/
def fSig (x : Num32) : Nat := if fMag x < 2 ^ 23 then fMag x else fMag x % 2 ^ 23 + 2 ^ 23

/-- A pattern from a sign and magnitude bits. -/
def fPack (neg : Bool) (mag : Nat) : Num32 := BitVec.ofNat 32 ((if neg then 2 ^ 31 else 0) + mag)

/-- `m / 2 ^ d` rounded to the nearest integer, a tie to the even one. -/
def roundShift (m d : Nat) : Nat :=
  let q := m / 2 ^ d
  let r := 2 * (m % 2 ^ d)
  if 2 ^ d < r ∨ (r = 2 ^ d ∧ q % 2 = 1) then q + 1 else q

/-- The magnitude bits nearest to `m * 2 ^ e / 2 ^ b`, a tie to the even pattern; an overflow gives an infinity. The
result's last bit weighs `2 ^ (q - 149)`, where `q` is cut at 0 for a subnormal result. -/
def roundMag (m e b : Nat) : Nat :=
  if m = 0 then 0
  else
    let q := Nat.log2 m + 126 + e - b
    let sig := if 149 + e ≤ q + b then roundShift m (q + b - (149 + e)) else m * 2 ^ (149 + e - (q + b))
    min (q * 2 ^ 23 + sig) infMag

/-- `-x`, the sign bit flipped. -/
def fFlip (x : Num32) : Num32 := x ^^^ 0x80000000

/-- The NaN an operation answers: a quiet NaN whose sign and payload are free (log 2). -/
def fNaN (op : ArithOp) (a b : Num32) : Num32 := (Config.nanBits op a b &&& 0x803FFFFF) ||| 0x7FC00000

/-- The exact signed sum of two finite numbers' significands, in units of `2 ^ min(exponents) / 2 ^ 150`. -/
def alignedSum (a b : Num32) : Int :=
  let e := min (fExp a) (fExp b)
  let term (x : Num32) : Int := (if fNeg x then -1 else 1) * ((fSig x * 2 ^ (fExp x - e) : Nat) : Int)
  term a + term b

/-- The sum of two finite numbers, rounded once; an exact zero is -0 only when both operands are negative zeros. -/
def addFinite (a b : Num32) : Num32 :=
  let t := alignedSum a b
  if t = 0 then fPack (fNeg a && fNeg b) 0
  else fPack (decide (t < 0)) (roundMag t.natAbs (min (fExp a) (fExp b)) 150)

/-- The sum of two operands neither of which is a NaN; `op` names the operation for a NaN result. -/
def addOrdered (op : ArithOp) (x y a b : Num32) : Num32 :=
  if fIsInf a then (if fIsInf b && fNeg a != fNeg b then fNaN op x y else a)
  else if fIsInf b then b
  else addFinite a b

/-- `+f` (rule R7). -/
def fAdd (a b : Num32) : Num32 :=
  if fIsNaN a || fIsNaN b then fNaN .add a b else addOrdered .add a b a b

/-- `-f` (rule R7): `a + (-b)`. -/
def fSub (a b : Num32) : Num32 :=
  if fIsNaN a || fIsNaN b then fNaN .sub a b else addOrdered .sub a b a (fFlip b)

/-- `*f` (rule R7). -/
def fMul (a b : Num32) : Num32 :=
  let neg := fNeg a != fNeg b
  if fIsNaN a || fIsNaN b then fNaN .mul a b
  else if fIsInf a || fIsInf b then
    (if fIsZero a || fIsZero b then fNaN .mul a b else fPack neg infMag)
  else fPack neg (roundMag (fSig a * fSig b) (fExp a + fExp b) 300)

/-- The quotient of two significands to 50 more bits, with a last bit that is 1 when a remainder is left. -/
def stickyQuotient (m n : Nat) : Nat :=
  2 * (m * 2 ^ 50 / n) + (if m * 2 ^ 50 % n = 0 then 0 else 1)

/-- `/f` (rule R7). -/
def fDiv (a b : Num32) : Num32 :=
  let neg := fNeg a != fNeg b
  if fIsNaN a || fIsNaN b then fNaN .div a b
  else if fIsInf a then (if fIsInf b then fNaN .div a b else fPack neg infMag)
  else if fIsInf b then fPack neg 0
  else if fIsZero b then (if fIsZero a then fNaN .div a b else fPack neg infMag)
  else fPack neg (roundMag (stickyQuotient (fSig a) (fSig b)) (fExp a + 254 - fExp b) 305)

/-- The place of a number on the number line, both zeros at 0. -/
def fKey (x : Num32) : Int := if fNeg x then -(fMag x : Int) else fMag x

/-- `<f` (rule R7): false whenever an operand is a NaN. -/
def fLt (a b : Num32) : Bool := !fIsNaN a && !fIsNaN b && decide (fKey a < fKey b)

/-- `ofNat` (rule R7): the number nearest to `n`; exact up to 2^24 (beyond 65535: log 20). -/
def fOfNat (n : Nat) : Num32 := fPack false (roundMag n 0 0)

/-- The integer part of a finite magnitude. -/
def fTrunc (x : Num32) : Nat := fSig x * 2 ^ fExp x / 2 ^ 150

/-- `Q10` (rule R77): tenfold, then 0 for a NaN, 0 at or below 0, 65535 at or above 65535, else the integer part. -/
def fQ10 (p : Num32) : Half :=
  let t := fMul p (fOfNat 10)
  if fIsNaN t then 0
  else if !fLt (fOfNat 0) t then 0
  else if !fLt t (fOfNat 65535) then 65535
  else BitVec.ofNat 16 (fTrunc t)

/-- The decided instantiation of `Num` (rule R7, decision D6, log 1). -/
def binary32 : Config.Numerics Num32 where
  zero := fOfNat 0
  one := fOfNat 1
  two := fOfNat 2
  three := fOfNat 3
  seven := fOfNat 7
  ten := fOfNat 10
  twentyFive := fOfNat 25
  ofNat := fOfNat
  add := fAdd
  sub := fSub
  mul := fMul
  div := fDiv
  lt := fLt
  q10 := fQ10

/-- Whether U3 leaves the binary32 result `r` of an operation on `a` and `b` unspecified: a division by zero, a NaN, or an
infinity from finite operands (an overflow). -/
def leftOpen (op : ArithOp) (a b r : Num32) : Bool :=
  (op == .div && fIsZero b) || fIsNaN r || (fIsInf r && !fIsInf a && !fIsInf b)

/-- The result of an operation of the calibration models: the rounded result, and where U3 leaves it unspecified a
free function of the operation and its operands (log 3). -/
def modelResult (op : ArithOp) (a b r : Num32) : Num32 :=
  if leftOpen op a b r then Config.unspecified op a b else r

/-- The numerics of the calibration models (rules R130 to R136, R147, R153): `binary32`, with a free value in every
place U3 calls "any value of type `Num`". -/
def modelNum : Config.Numerics Num32 where
  zero := fOfNat 0
  one := fOfNat 1
  two := fOfNat 2
  three := fOfNat 3
  seven := fOfNat 7
  ten := fOfNat 10
  twentyFive := fOfNat 25
  ofNat := fOfNat
  add a b := modelResult .add a b (fAdd a b)
  sub a b := modelResult .sub a b (fSub a b)
  mul a b := modelResult .mul a b (fMul a b)
  div a b := modelResult .div a b (fDiv a b)
  lt := fLt
  q10 := fQ10

/-- `Q10` over the rational numbers (rule R77): the tenfold clipped to 0 and 65535, its integer part. -/
def exactQ10 (p : ℚ) : Half := BitVec.ofNat 16 (min (p * 10).floor.toNat 65535)

/-- The numerics record over the rational numbers: nothing is rounded ("an exact `Num`", rules R112, R160). -/
def exactNum : Config.Numerics ℚ where
  zero := 0
  one := 1
  two := 2
  three := 3
  seven := 7
  ten := 10
  twentyFive := 25
  ofNat n := n
  add a b := a + b
  sub a b := a - b
  mul a b := a * b
  div a b := a / b
  lt a b := decide (a < b)
  q10 := exactQ10

/-- The exact numerics of the calibration models: a division by zero gives a free value (U3, log 3). -/
def exactModelNum : Config.Numerics ℚ :=
  { exactNum with div := fun a b => if b = 0 then Config.unspecifiedExact .div a b else a / b }

/-- A record over one of the number types as a record over `Number`. -/
def liftNum {α : Type} (inj : α → Number) (proj : Number → α) (N : Config.Numerics α) : Config.Numerics Number where
  zero := inj N.zero
  one := inj N.one
  two := inj N.two
  three := inj N.three
  seven := inj N.seven
  ten := inj N.ten
  twentyFive := inj N.twentyFive
  ofNat n := inj (N.ofNat n)
  add a b := inj (N.add (proj a) (proj b))
  sub a b := inj (N.sub (proj a) (proj b))
  mul a b := inj (N.mul (proj a) (proj b))
  div a b := inj (N.div (proj a) (proj b))
  lt a b := N.lt (proj a) (proj b)
  q10 p := N.q10 (proj p)

/-- The record with the conversion the configuration selects (Table P's row `Q10`). -/
def withQ10 (q : Q10Sel) (N : Config.Numerics Number) : Config.Numerics Number :=
  match q with
  | .ofNum => N
  | .other n => { N with q10 := Config.otherQ10 n }

/-- The numerics the block is configured with (rules R6, R7). -/
def cfgNum (c : Cfg) : Config.Numerics Number :=
  match c.num with
  | .binary32 => withQ10 c.q10 (liftNum .b32 Number.toB32 binary32)
  | .exact => withQ10 c.q10 (liftNum .exact Number.toRat exactNum)
  | .other n => withQ10 c.q10 (Config.otherNum n)

/-- The same numerics as the calibration models use them, with a free value wherever U3 leaves the result open. Of an
unknown record every result is free as it stands. -/
def cfgModelNum (c : Cfg) : Config.Numerics Number :=
  match c.num with
  | .binary32 => withQ10 c.q10 (liftNum .b32 Number.toB32 modelNum)
  | .exact => withQ10 c.q10 (liftNum .exact Number.toRat exactModelNum)
  | .other n => withQ10 c.q10 (Config.otherNum n)

end Sys2Proof.Machine
end

