-- ==== Sys2Proof/Machine/State.lean ====
section
/-! DEFINITION. The state of the block (Table S of rule R20), the inputs the environment will present to it, the
reasons a step can stop, and the state after reset (Table V of rule R42). -/

namespace Sys2Proof.Machine

open Sys2Proof

/-- The input events of rule R58: the whole of what the environment can do to the block. -/
inductive Event where
  /-- One byte arrives from the host (rule R99). -/
  | rxByte (b : Byte)
  /-- One telemetry tick (rule R175). -/
  | tick
  /-- The ambient temperature is supplied to the TDS model (rule R137). -/
  | setTemp (t : Number)
  /-- Hardware reset (rule R210). -/
  | hwReset
  deriving DecidableEq, Repr

/-- The registers of one sensor: its stored value, its circular buffer and the write cursor (rules R23, R25, R26).
A sensor without a filter has no buffer and no cursor, an absent one none of the three: the fields stand here all the
same and are neither read nor written (log 11). -/
structure SensorRegs where
  value : Number
  buf : List Number
  cur : Nat
  deriving DecidableEq, Repr

/-- The state. `rxBuf` to `tdsTemp` are the block's own (Table S); `cfg` is its configuration, which no step writes
(rule R6, log 8); `events`, `rawAns`, `rawLog` and `free` are the model's (logs 6, 7, 15, 16). -/
structure State where
  /-- The configuration `Cfg` (Table P). -/
  cfg : Cfg
  /-- `rx_buf[0..5]` (rule R37). -/
  rxBuf : Vector Byte 6
  /-- `rx_cnt`, 0 to 5 (rule R37). -/
  rxCnt : Fin 6
  /-- `tx`, every byte emitted toward the host, in emission order (rule R38). -/
  tx : List Byte
  /-- `value[s]`, `buf[s]`, `cur[s]` of each kind. -/
  sensor : PerKind SensorRegs
  /-- `ph_mode` (rule R29). -/
  phMode : PhMode
  /-- `ph_zero_offset` (rule R30). -/
  phZeroOffset : Number
  /-- `ph_low` (rule R31). -/
  phLow : Number
  /-- `ph_mid` (rule R31). -/
  phMid : Number
  /-- `ph_high` (rule R31). -/
  phHigh : Number
  /-- `tds_probe` (rule R33). -/
  tdsProbe : Number
  /-- `tds_temp` (rule R34). -/
  tdsTemp : Number
  /-- The events the environment has still to present, the next one first (rule R60, log 7). -/
  events : List Event
  /-- The answers the front end will give to the next `RAW(s)` requests, per kind (rule R9, log 6). -/
  rawAns : PerKind (List Number)
  /-- The `RAW(s)` requests made so far, in order: an output trace, as `tx` is (rule R58, log 15). -/
  rawLog : List Kind
  /-- How many free values have been drawn (log 16). -/
  free : Nat
  deriving DecidableEq, Repr

/-- The reasons the machine stops with a fault: none. "No error is fatal to the process" (rule R193), no arithmetic,
range or state error exists (rule R200), and a rejected frame is dropped (rule R194). The type is empty (log 21). -/
inductive Fault where
  deriving DecidableEq, Repr

/-- The reasons the model gives no behaviour. -/
inductive Refusal where
  /-- Raised by an arm of `exec` whose instruction has no meaning yet. Safe. -/
  | notModelled (mnemonic : String)
  /-- Raised by `step` when the configuration is illegal: "a block with an illegal configuration does not exist; a
  model refuses it" (rule R212, U7). Safe. -/
  | illegalConfiguration
  deriving DecidableEq, Repr

/-- What a step or a meaning answers. -/
abbrev Outcome := Host.Outcome State Fault Refusal

/-- The window of a sensor after reset: `C(s)` copies of `INIT(s)` if it has a filter (rules R24, R25, R210). -/
def resetWindow (c : SensorCfg) : List Number :=
  match c.filter with
  | .none => []
  | .mean => List.replicate c.cap c.initial
  | .median => List.replicate c.cap c.initial

/-- The registers of a sensor after reset (Table V). -/
def resetRegs (c : SensorCfg) : SensorRegs where
  value := c.initial
  buf := resetWindow c
  cur := 0

/-- The block of configuration `c` right after its first reset (Table V of rule R42). The bytes of `rx_buf`, which
the spec leaves unspecified, are zero (log 10). No event is pending, no answer scripted (logs 6, 7, 15, 16). -/
def State.initial (c : Cfg) : State where
  cfg := c
  rxBuf := Vector.replicate 6 0
  rxCnt := 0
  tx := []
  sensor :=
    { temp := resetRegs c.sensor.temp
      ph := resetRegs c.sensor.ph
      tds := resetRegs c.sensor.tds }
  phMode := c.ph.initMode
  phZeroOffset := (cfgNum c).zero
  phLow := c.ph.defLow
  phMid := c.ph.defMid
  phHigh := c.ph.defHigh
  tdsProbe := c.tds.defProbe
  tdsTemp := (cfgNum c).twentyFive
  events := []
  rawAns := { temp := [], ph := [], tds := [] }
  rawLog := []
  free := 0

/-- The machine right after reset, in the configuration of Table P's defaults (log 9). -/
def State.reset : State := State.initial Config.default

end Sys2Proof.Machine
end

