-- ==== Sys2Proof/Machine/Ops.lean ====
section
/-! DEFINITION. The shared operations over the state: register writes, the receive registers, `emit`, `RAW`, presence
of a sensor, the drop of a rejected frame, and sequencing of outcomes. -/

namespace Sys2Proof.Machine

open Sys2Proof

/-- Run `f` on the next state; a fault or a refusal ends the step (rule R60 (c)). -/
def andThen (o : Outcome) (f : State → Outcome) : Outcome :=
  match o with
  | .next s => f s
  | .fault r => .fault r
  | .refused r => .refused r

namespace State

/-- `PRESENT(s)`. -/
def present (k : Kind) (s : State) : Bool := (s.cfg.sensor.get k).present

/-- `FILTER(s)`. -/
def filter (k : Kind) (s : State) : FilterSel := (s.cfg.sensor.get k).filter

/-- `C(s)`. -/
def cap (k : Kind) (s : State) : Nat := (s.cfg.sensor.get k).cap

/-- The registers of sensor `k`. -/
def regs (k : Kind) (s : State) : SensorRegs := s.sensor.get k

/-- `value[s] <- v`. -/
def setValue (k : Kind) (v : Number) (s : State) : State :=
  { s with sensor := s.sensor.set k { s.sensor.get k with value := v } }

/-- `buf[s] <- buf` and `cur[s] <- cur`. -/
def setWindow (k : Kind) (buf : List Number) (cur : Nat) (s : State) : State :=
  { s with sensor := s.sensor.set k { s.sensor.get k with buf := buf, cur := cur } }

/-- `ph_mode <- m`. -/
def setPhMode (m : PhMode) (s : State) : State := { s with phMode := m }

/-- `ph_zero_offset <- v`. -/
def setPhZeroOffset (v : Number) (s : State) : State := { s with phZeroOffset := v }

/-- `ph_low <- v`. -/
def setPhLow (v : Number) (s : State) : State := { s with phLow := v }

/-- `ph_mid <- v`. -/
def setPhMid (v : Number) (s : State) : State := { s with phMid := v }

/-- `ph_high <- v`. -/
def setPhHigh (v : Number) (s : State) : State := { s with phHigh := v }

/-- `tds_probe <- v`. -/
def setTdsProbe (v : Number) (s : State) : State := { s with tdsProbe := v }

/-- `tds_temp <- v`. -/
def setTdsTemp (v : Number) (s : State) : State := { s with tdsTemp := v }

/-- `rx_buf[rx_cnt] <- b` (rule R99). -/
def storeRx (b : Byte) (s : State) : State := { s with rxBuf := s.rxBuf.set s.rxCnt.val b s.rxCnt.isLt }

/-- `rx_cnt <- n`. -/
def setRxCnt (n : Fin 6) (s : State) : State := { s with rxCnt := n }

/-- `emit(b)`: append one byte to `tx` (rules R9, R38). -/
def emit (b : Byte) (s : State) : State := { s with tx := s.tx ++ [b] }

/-- `emit` of each byte of a frame in index order (rules R53, R175). -/
def emitFrame : List Byte → State → State
  | [], s => s
  | b :: bs, s => emitFrame bs (emit b s)

/-- The answer of one `RAW(s)` invocation: the next scripted answer, else a free value of the configured number type (rule R9,
U11, log 6). -/
def rawValue (k : Kind) (s : State) : Number :=
  match s.rawAns.get k with
  | [] => s.cfg.num.cast (Config.rawAnswer k s.free)
  | r :: _ => r

/-- The state after one `RAW(s)` invocation: the answer is used up and the request is on the output trace. The block
stores nothing of it (rule R39). -/
def afterRaw (k : Kind) (s : State) : State :=
  match s.rawAns.get k with
  | [] => { s with rawLog := s.rawLog ++ [k], free := s.free + 1 }
  | _ :: rest => { s with rawAns := s.rawAns.set k rest, rawLog := s.rawLog ++ [k] }

/-- One free value has been drawn (log 16). -/
def drawFree (s : State) : State := { s with free := s.free + 1 }

/-- The next event is taken from the environment's list. -/
def setEvents (es : List Event) (s : State) : State := { s with events := es }

end State

/-- `f` where sensor `k` is present; a command or frame of an absent sensor has no effect (rules R81, R174). -/
def onPresent (k : Kind) (f : State → State) (s : State) : State := if s.present k then f s else s

/-- The effect of a command that has no meaning for its kind: nothing (rule R139). -/
def noEffect (s : State) : State := s

/-- The drop, the block's whole reaction to an error (rule R194): nothing beyond what the receive registers already
hold. There is nothing to return from: the block is in its ordinary waiting state (rule R195). -/
def dropFrame (_e : FrameError) (s : State) : State := s

end Sys2Proof.Machine
end

