-- ==== Sys2Proof/Machine/Operands.lean ====
section
/-! DEFINITION. The operand forms: the two readings of a command's 16-bit argument (rules R76, R78), and the wire
form of a physical value (rule R77). The assembly of the two bytes is `half` (Decode.lean). -/

namespace Sys2Proof.Machine

open Sys2Proof

/-- The argument read as a physical quantity in tenths: `ofNat(arg) /f 10` (rule R76). -/
def argTenths {α : Type} (N : Config.Numerics α) (arg : Half) : α := N.div (N.ofNat arg.toNat) N.ten

/-- The argument read as a mode selector: 0 Basic, 1 Advanced, any other value nothing (rules R78, R151). -/
def argMode (arg : Half) : Option PhMode :=
  if arg = 0 then some .basic
  else if arg = 1 then some .advanced
  else none

/-- The argument of an accepted command frame (rule R76): `256 * arg_hi + arg_lo`. -/
def frameArg (f : Frame6) : Half := half f.argHi f.argLo

end Sys2Proof.Machine
end

