-- ==== Sys2Proof/Machine/Flags.lean ====
section
/-! DEFINITION. The block has no condition codes (rule R20). Its one flag-like element is `ph_mode` (rule R29), written
by `PH.SETMODE` alone; the outcome of a decode is a return value and is never stored (rules R39, R193). -/

namespace Sys2Proof.Machine

open Sys2Proof

/-- `ph_mode` after `PH.SETMODE arg` (rule R151). -/
def modeAfter (arg : Half) (m : PhMode) : PhMode :=
  match argMode arg with
  | some m' => m'
  | none => m

end Sys2Proof.Machine
end

