-- ==== Sys2Proof/Machine/Models.lean ====
section
/-! DEFINITION. The calibration models (rules R130 to R136) and the arithmetic of the calibration commands (rules R147,
R153), each formula written over the numerics record of rule R7 in the order the rule parenthesises it. -/

namespace Sys2Proof.Machine

open Sys2Proof

section Formulas

variable {α : Type} (N : Config.Numerics α)

/-- `XFORM.TEMP` (rule R131): pass-through. -/
def xformTemp (r : α) : α := r

/-- `XFORM.PH.BASIC` (rule R132). -/
def xformPhBasic (k offset v : α) : α := N.mul k (N.add v offset)

/-- `XFORM.PH.ADV` (rule R133): two segments through pH 7 at `mid`; the upper one strictly above `mid`. -/
def xformPhAdv (low mid high v : α) : α :=
  if N.gt v mid then N.sub N.seven (N.mul (N.div N.three (N.sub mid high)) (N.sub v mid))
  else N.sub N.seven (N.mul (N.div N.three (N.sub low mid)) (N.sub v mid))

/-- `TDS_POLY` (rule R135). -/
def tdsPoly (c : TdsCfg α) (v : α) : α :=
  let t3 := N.mul (N.mul (N.mul c.a3 v) v) v
  let t2 := N.mul (N.mul c.a2 v) v
  let t1 := N.mul c.a1 v
  N.add (N.add (N.add t3 t2) t1) c.a0

/-- `TDS_COMP` (rule R136), with `TDS_REF_TEMP` = 25. -/
def tdsComp (c : TdsCfg α) (temp : α) : α := N.add N.one (N.mul c.tempCoeff (N.sub temp N.twentyFive))

/-- `XFORM.TDS` (rule R134). -/
def xformTds (c : TdsCfg α) (probe temp v : α) : α :=
  let ec := tdsPoly N c v
  let ec25 := N.div ec (tdsComp N c temp)
  N.mul (N.mul ec25 probe) c.factor

/-- The offset `PH.CALIBRATE` stores for the sampled voltage `v` (rule R147). -/
def phOffsetFor (k v : α) : α := N.sub (N.div N.seven k) v

/-- The probe constant `TDS.CALIBRATE` solves for (rule R153). -/
def tdsProbeFor (c : TdsCfg α) (temp : α) (arg : Half) (v : α) : α :=
  let ref := argTenths N arg
  let ecRef := N.div ref c.factor
  N.div (N.mul ecRef (tdsComp N c temp)) (tdsPoly N c v)

end Formulas

/-- The physical value of a raw sample through the active model of sensor `k` (rule R170). -/
def transform (k : Kind) (r : Number) (s : State) : Number :=
  match k with
  | .temp => xformTemp r
  | .ph =>
    match s.phMode with
    | .basic => xformPhBasic (cfgModelNum s.cfg) s.cfg.ph.k s.phZeroOffset r
    | .advanced => xformPhAdv (cfgModelNum s.cfg) s.phLow s.phMid s.phHigh r
  | .tds => xformTds (cfgModelNum s.cfg) s.cfg.tds s.tdsProbe s.tdsTemp r

end Sys2Proof.Machine
end

