-- ==== Sys2Proof/Machine/Ph.lean ====
section
/-! DEFINITION. The six commands of the PH sensor (rules R146 to R151). None is gated by `ph_mode` but the reset
(decision D18). -/

namespace Sys2Proof.Machine

open Sys2Proof

/-- The registers `PH.RESET` restores: those of the current mode (rule R146). `PH_DEF_OFFSET` is the number 0 (Table P). -/
def restorePh (s : State) : State :=
  match s.phMode with
  | .basic => s.setPhZeroOffset (cfgNum s.cfg).zero
  | .advanced => ((s.setPhLow s.cfg.ph.defLow).setPhMid s.cfg.ph.defMid).setPhHigh s.cfg.ph.defHigh

/-- `PH.RESET` (rule R146). -/
def execPhReset (_arg : Half) (s : State) : Outcome := .next (onPresent .ph restorePh s)

/-- `PH.CALIBRATE` (rule R147): one raw sample sets the basic-mode offset, in either mode. -/
def execPhCalibrate (_arg : Half) (s : State) : Outcome :=
  .next (onPresent .ph
    (fun s => (s.afterRaw .ph).setPhZeroOffset (phOffsetFor (cfgModelNum s.cfg) s.cfg.ph.k (s.rawValue .ph))) s)

/-- `PH.CALLOW` (rule R148): one raw sample is the low reference. -/
def execPhCalLow (_arg : Half) (s : State) : Outcome :=
  .next (onPresent .ph (fun s => (s.afterRaw .ph).setPhLow (s.rawValue .ph)) s)

/-- `PH.CALMID` (rule R149): one raw sample is the middle reference. -/
def execPhCalMid (_arg : Half) (s : State) : Outcome :=
  .next (onPresent .ph (fun s => (s.afterRaw .ph).setPhMid (s.rawValue .ph)) s)

/-- `PH.CALHIGH` (rule R150): one raw sample is the high reference. -/
def execPhCalHigh (_arg : Half) (s : State) : Outcome :=
  .next (onPresent .ph (fun s => (s.afterRaw .ph).setPhHigh (s.rawValue .ph)) s)

/-- `PH.SETMODE` (rule R151): writes `ph_mode` only. -/
def execPhSetMode (arg : Half) (s : State) : Outcome :=
  .next (onPresent .ph (fun s => s.setPhMode (modeAfter arg s.phMode)) s)

end Sys2Proof.Machine
end

