-- ==== Sys2Proof/Machine/Tds.lean ====
section
/-! DEFINITION. The six commands of the TDS sensor (rules R152 to R157). -/

namespace Sys2Proof.Machine

open Sys2Proof

/-- `TDS.RESET` (rule R152): the default probe constant; `tds_temp` is not restored (rule R34). -/
def execTdsReset (_arg : Half) (s : State) : Outcome :=
  .next (onPresent .tds (fun s => s.setTdsProbe s.cfg.tds.defProbe) s)

/-- `TDS.CALIBRATE` (rule R153): one raw sample and the reference concentration give the probe constant. -/
def execTdsCalibrate (arg : Half) (s : State) : Outcome :=
  .next (onPresent .tds
    (fun s => (s.afterRaw .tds).setTdsProbe (tdsProbeFor (cfgModelNum s.cfg) s.cfg.tds s.tdsTemp arg (s.rawValue .tds))) s)

/-- `TDS.CALLOW` (rule R154): nothing. -/
def execTdsCalLow (_arg : Half) (s : State) : Outcome := .next (onPresent .tds noEffect s)

/-- `TDS.CALMID` (rule R155): nothing. -/
def execTdsCalMid (_arg : Half) (s : State) : Outcome := .next (onPresent .tds noEffect s)

/-- `TDS.CALHIGH` (rule R156): nothing. -/
def execTdsCalHigh (_arg : Half) (s : State) : Outcome := .next (onPresent .tds noEffect s)

/-- `TDS.SETMODE` (rule R157): nothing; the TDS model has one mode. -/
def execTdsSetMode (_arg : Half) (s : State) : Outcome := .next (onPresent .tds noEffect s)

end Sys2Proof.Machine
end

