-- ==== Sys2Proof/Machine/Telemetry.lean ====
section
/-! DEFINITION. The telemetry frames (rules R71, R175): a tick issues one for every present sensor, and its meaning is
to put its five bytes on `tx` (log 12). -/

namespace Sys2Proof.Machine

open Sys2Proof

/-- The frame of kind `k` with field `value`, encoded by `ENC5` and emitted byte by byte (rules R92, R175). -/
def emitTelemetry (k : Kind) (value : Half) (s : State) : State :=
  s.emitFrame (encodeTelemetry s.cfg.codes k value)

/-- `TLM.TEMP` (rules R84, R175). -/
def execTlmTemp (value : Half) (s : State) : Outcome := .next (onPresent .temp (emitTelemetry .temp value) s)

/-- `TLM.PH` (rules R84, R175). -/
def execTlmPh (value : Half) (s : State) : Outcome := .next (onPresent .ph (emitTelemetry .ph value) s)

/-- `TLM.TDS` (rules R84, R175). -/
def execTlmTds (value : Half) (s : State) : Outcome := .next (onPresent .tds (emitTelemetry .tds value) s)

end Sys2Proof.Machine
end

