-- ==== Sys2Proof/Machine/Temp.lean ====
section
/-! DEFINITION. The six commands of the Temperature sensor (rules R140 to R145): "No calibration commands are
meaningful". -/

namespace Sys2Proof.Machine

open Sys2Proof

/-- `TEMP.RESET` (rule R140): no calibration state to restore; value and window stay. -/
def execTempReset (_arg : Half) (s : State) : Outcome := .next (onPresent .temp noEffect s)

/-- `TEMP.CALIBRATE` (rule R141): nothing, and no `RAW` invocation. -/
def execTempCalibrate (_arg : Half) (s : State) : Outcome := .next (onPresent .temp noEffect s)

/-- `TEMP.CALLOW` (rule R142): nothing. -/
def execTempCalLow (_arg : Half) (s : State) : Outcome := .next (onPresent .temp noEffect s)

/-- `TEMP.CALMID` (rule R143): nothing. -/
def execTempCalMid (_arg : Half) (s : State) : Outcome := .next (onPresent .temp noEffect s)

/-- `TEMP.CALHIGH` (rule R144): nothing. -/
def execTempCalHigh (_arg : Half) (s : State) : Outcome := .next (onPresent .temp noEffect s)

/-- `TEMP.SETMODE` (rule R145): nothing; the Temperature model has one mode. -/
def execTempSetMode (_arg : Half) (s : State) : Outcome := .next (onPresent .temp noEffect s)

end Sys2Proof.Machine
end

