-- ==== Sys2Proof/Machine/Dispatch.lean ====
section
/-! DEFINITION. One arm per instruction. -/

namespace Sys2Proof.Machine

open Sys2Proof

def exec (i : Instr) (s : State) : Host.Outcome State Fault Refusal :=
  match i with
  | .tempReset arg => Sys2Proof.Machine.execTempReset arg s
  | .tempCalibrate arg => Sys2Proof.Machine.execTempCalibrate arg s
  | .tempCalLow arg => Sys2Proof.Machine.execTempCalLow arg s
  | .tempCalMid arg => Sys2Proof.Machine.execTempCalMid arg s
  | .tempCalHigh arg => Sys2Proof.Machine.execTempCalHigh arg s
  | .tempSetMode arg => Sys2Proof.Machine.execTempSetMode arg s
  | .phReset arg => Sys2Proof.Machine.execPhReset arg s
  | .phCalibrate arg => Sys2Proof.Machine.execPhCalibrate arg s
  | .phCalLow arg => Sys2Proof.Machine.execPhCalLow arg s
  | .phCalMid arg => Sys2Proof.Machine.execPhCalMid arg s
  | .phCalHigh arg => Sys2Proof.Machine.execPhCalHigh arg s
  | .phSetMode arg => Sys2Proof.Machine.execPhSetMode arg s
  | .tdsReset arg => Sys2Proof.Machine.execTdsReset arg s
  | .tdsCalibrate arg => Sys2Proof.Machine.execTdsCalibrate arg s
  | .tdsCalLow arg => Sys2Proof.Machine.execTdsCalLow arg s
  | .tdsCalMid arg => Sys2Proof.Machine.execTdsCalMid arg s
  | .tdsCalHigh arg => Sys2Proof.Machine.execTdsCalHigh arg s
  | .tdsSetMode arg => Sys2Proof.Machine.execTdsSetMode arg s
  | .tlmTemp value => Sys2Proof.Machine.execTlmTemp value s
  | .tlmPh value => Sys2Proof.Machine.execTlmPh value s
  | .tlmTds value => Sys2Proof.Machine.execTlmTds value s

end Sys2Proof.Machine
end

