-- ==== Sys2Proof/Machine/Filter.lean ====
section
/-! DEFINITION. The Filter Engine (rules R110 to R119): the push, the moving average and the median of the window. -/

namespace Sys2Proof.Machine

open Sys2Proof

section Aggregates

variable {α : Type} (N : Config.Numerics α)

/-- `AGG.MEAN` (rule R112): the slots summed in index order from 0, divided once by `ofNat(C)`. -/
def aggMean (c : Nat) (buf : List α) : α := N.div (buf.foldl N.add N.zero) (N.ofNat c)

/-- Insert into an ascending sequence, before the first element that is not smaller. -/
def sortInsert (x : α) : List α → List α
  | [] => [x]
  | y :: ys => if N.lt y x then y :: sortInsert x ys else x :: y :: ys

/-- `SORT` (rule R114): a sorted copy, ascending by `<f`. -/
def sortAsc : List α → List α
  | [] => []
  | x :: xs => sortInsert N x (sortAsc xs)

/-- The elements the median takes (rules R113, R115): the middle one of an odd window; for an even window the mean of
indices `C/2` and `C/2 + 1`, as implemented, the lower index first. -/
def medianOf (c : Nat) (srt : List α) : α :=
  if c % 2 = 1 then srt.getD (c / 2) N.zero
  else N.div (N.add (srt.getD (c / 2) N.zero) (srt.getD (c / 2 + 1) N.zero)) N.two

/-- Whether `<f` is an order among the elements of the window: never both ways, and what compares with one of two
comparable elements lies on a side of the other (rule R114 speaks of a total order up to elements that compare equal). -/
def weakOrder (buf : List α) : Bool :=
  buf.all fun x => buf.all fun y =>
    !(N.lt x y && N.lt y x) && buf.all fun z => !N.lt x z || N.lt x y || N.lt y z

/-- Whether `<f` orders the window, so that rule R114 defines its sorted copy: it does wherever `<f` is an order. Under
IEEE numerics it does exactly for a window without a NaN. -/
def orders (buf : List α) : Bool := !buf.any N.unordered && weakOrder N buf

/-- Whether the window holds two different numbers that compare equal: rule R114 leaves their order open. Under IEEE
numerics and without a NaN these are the two zeros. -/
def hasTies [DecidableEq α] (buf : List α) : Bool :=
  buf.any fun x => buf.any fun y => decide (x ≠ y) && !N.lt x y && !N.lt y x

/-- The elements of a window in a free order, at draw `n`: every order is possible, and none is lost (U6, log 5). -/
def freeOrder (n : Nat) : List α → List α
  | [] => []
  | x :: xs => (freeOrder n xs).insertIdx (Config.tiePlace n xs.length % (xs.length + 1)) x

/-- `SORT` of the window at draw `n` (rule R114): elements that compare equal keep the order in which they come to the
sort, which is free where it matters (U6, log 5). -/
def sortWindow [DecidableEq α] (n : Nat) (buf : List α) : List α :=
  if hasTies N buf then sortAsc N (freeOrder n buf) else sortAsc N buf

/-- `AGG.MEDIAN` (rule R113) at draw `n`: the median of the sorted copy, and the free value `nan` while `<f` does not
order the window, as with a NaN in it (U5, log 5). -/
def aggMedian [DecidableEq α] (nan : α) (n c : Nat) (buf : List α) : α :=
  if orders N buf then medianOf N c (sortWindow N n buf) else nan

end Aggregates

/-- The buffer after a push of `x` at cursor `cur` (rule R110). -/
def pushSlot (cur : Nat) (x : Number) (buf : List Number) : List Number := buf.set cur x

/-- The cursor after a push (rule R110). -/
def nextCursor (c cur : Nat) : Nat := (cur + 1) % c

/-- The state after the write and the cursor's advance, before the aggregate (rule R110). -/
def pushState (k : Kind) (x : Number) (s : State) : State :=
  s.setWindow k (pushSlot (s.regs k).cur x (s.regs k).buf) (nextCursor (s.cap k) (s.regs k).cur)

/-- `PUSH` (rule R110): one slot overwritten, the cursor advanced, then the aggregate of the window. Its operand is a
sensor with a filter; for one without, a push changes nothing and the value stands (`READ` never asks). -/
def push (k : Kind) (x : Number) (s : State) : Number × State :=
  match s.filter k with
  | .none => (x, s)
  | .mean => (aggMean (cfgNum s.cfg) (s.cap k) ((pushState k x s).regs k).buf, pushState k x s)
  | .median =>
    let nan := s.cfg.num.cast (Config.medianNaN s.free)
    (aggMedian (cfgNum s.cfg) nan s.free (s.cap k) ((pushState k x s).regs k).buf, (pushState k x s).drawFree)

end Sys2Proof.Machine
end

