-- ==== Sys2Proof/Machine/Sensor.lean ====
section
/-! DEFINITION. The Sensor State Machine's uniform contract: `UPDATE`, `READ`, `KIND` (rules R170 to R173). -/

namespace Sys2Proof.Machine

open Sys2Proof

/-- `UPDATE` (rule R170): one raw sample through the active model into `value[s]`. -/
def updateSensor (k : Kind) (s : State) : State :=
  (s.afterRaw k).setValue k (transform k (s.rawValue k) s)

/-- `READ` (rule R171): the stored value, through the filter if there is one. -/
def readSensor (k : Kind) (s : State) : Number × State :=
  match s.filter k with
  | .none => ((s.regs k).value, s)
  | .mean => push k (s.regs k).value s
  | .median => push k (s.regs k).value s

/-- `KIND` (rule R172): the immutable kind tag. -/
def kindTag (k : Kind) : Kind := k

/-- `KIND` as it stands on the wire (rules R74, R172). -/
def kindByte (k : Kind) (s : State) : Byte := s.cfg.codes.kindCode (kindTag k)

end Sys2Proof.Machine
end

