-- ==== Sys2Proof/WellFormed.lean ====
section
/-! DEFINITION. Well-formedness: the legality of a configuration (rule R212) and of an instruction term. -/

namespace Sys2Proof

/-- `KIND_CODE` is injective (rules R74, R212). -/
def Codes.kindsDistinct (c : Codes) : Bool :=
  c.kind.temp != c.kind.ph && c.kind.temp != c.kind.tds && c.kind.ph != c.kind.tds

/-- The six command codes as a list, in the order of the enumeration (rule R75). -/
def Codes.commandBytes (c : Codes) : List Byte :=
  [c.cmd.reset, c.cmd.calibrate, c.cmd.calLow, c.cmd.calMid, c.cmd.calHigh, c.cmd.setMode]

/-- No byte of the list occurs twice. -/
def allDistinct : List Byte → Bool
  | [] => true
  | b :: bs => !bs.contains b && allDistinct bs

/-- `CMD_CODE` is injective (rules R75, R212). -/
def Codes.commandsDistinct (c : Codes) : Bool := allDistinct c.commandBytes

/-- Both code maps are injective (rule R212). -/
def Codes.wellFormed (c : Codes) : Bool := c.kindsDistinct && c.commandsDistinct

/-- A present sensor with a filter has `C(s) ≥ 1`, and `C(s) ≠ 2` when the filter is the median (rules R116, R212). -/
def SensorCfg.wellFormed (c : SensorCfg) : Bool :=
  match c.present, c.filter with
  | false, _ => true
  | true, .none => true
  | true, .mean => decide (1 ≤ c.cap)
  | true, .median => decide (1 ≤ c.cap) && decide (c.cap ≠ 2)

/-- Legality of the configuration (rule R212): "No other condition is imposed". -/
def Cfg.legal (c : Cfg) : Bool :=
  c.codes.wellFormed && c.sensor.temp.wellFormed && c.sensor.ph.wellFormed && c.sensor.tds.wellFormed

/-- Well-formedness of an instruction term. Its one operand is 16 bits by its type, and the encoders accept every
byte value of a payload (rules R91, R97), so every term is well formed. -/
def Instr.wellFormed (_ : Instr) : Bool := true

end Sys2Proof
end

