-- ==== Sys2Proof/Machine/Link.lean ====
section
/-! DEFINITION. The Link Session and the input events: `DISPATCH`, `RXBYTE`, `TICK`, `SETTEMP`, `HWRESET` (rules R99,
R137, R174, R175, R210), one event of the environment's list, and where a table word is laid to run next. -/

namespace Sys2Proof.Machine

open Sys2Proof

/-- `DISPATCH` (rule R174): the rule of the selected (kind, command) pair, or nothing (rule R81). -/
def dispatch (kb cb : Byte) (arg : Half) (s : State) : Outcome :=
  match commandInstr s.cfg.codes kb cb arg with
  | some i => exec i s
  | none => .next s

/-- The verdict on a whole chunk (rule R99): execute the frame, or drop it (rule R194). -/
def judgeChunk (s : State) : Outcome :=
  match dec6 s.cfg.codes.pfx s.rxBuf.toList with
  | .frame f => dispatch f.kind f.command (frameArg f) s
  | .error e => .next (dropFrame e s)

/-- `RXBYTE` (rule R99). -/
def rxByte (b : Byte) (s : State) : Outcome :=
  if s.rxCnt.val < 5 then .next ((s.storeRx b).setRxCnt (s.rxCnt + 1))
  else judgeChunk ((s.storeRx b).setRxCnt 0)

/-- The telemetry frame a tick issues for sensor `k`: the sensor is updated and read, and the frame carries `Q10` of
what the read answers (rule R175). -/
def serve (k : Kind) (s : State) : Outcome :=
  let r := readSensor k (updateSensor k s)
  exec (Instr.ofTelemetry k ((cfgNum s.cfg).q10 r.1)) r.2

/-- One sensor's share of a tick; an absent sensor has none (rule R175). -/
def tickSensor (k : Kind) (s : State) : Outcome :=
  if s.present k then serve k s else .next s

/-- `TICK` (rule R175): Temperature, PH, TDS, each finished before the next begins (rule R177). -/
def tick (s : State) : Outcome :=
  andThen (andThen (tickSensor .temp s) (tickSensor .ph)) (tickSensor .tds)

/-- `SETTEMP` (rule R137). -/
def setTemp (t : Number) (s : State) : State := onPresent .tds (State.setTdsTemp t) s

/-- The share of `HWRESET` common to all kinds, for sensor `k` (rule R210). -/
def resetSensor (k : Kind) (s : State) : State :=
  onPresent k
    (fun s =>
      match s.filter k with
      | .none => s.setValue k (s.cfg.sensor.get k).initial
      | .mean =>
        (s.setValue k (s.cfg.sensor.get k).initial).setWindow k
          (List.replicate (s.cap k) (s.cfg.sensor.get k).initial) 0
      | .median =>
        (s.setValue k (s.cfg.sensor.get k).initial).setWindow k
          (List.replicate (s.cap k) (s.cfg.sensor.get k).initial) 0) s

/-- The PH registers' share of `HWRESET` (rule R210). -/
def resetPh (s : State) : State :=
  onPresent .ph
    (fun s =>
      ((((s.setPhMode s.cfg.ph.initMode).setPhZeroOffset (cfgNum s.cfg).zero).setPhLow s.cfg.ph.defLow).setPhMid
        s.cfg.ph.defMid).setPhHigh s.cfg.ph.defHigh) s

/-- The TDS registers' share of `HWRESET` (rule R210). -/
def resetTds (s : State) : State :=
  onPresent .tds (fun s => (s.setTdsProbe s.cfg.tds.defProbe).setTdsTemp (cfgNum s.cfg).twentyFive) s

/-- `HWRESET` (rule R210): Table V restored; `tx`, `rx_buf` and the configuration stay. -/
def hwReset (s : State) : State :=
  resetTds (resetPh (resetSensor .tds (resetSensor .ph (resetSensor .temp (s.setRxCnt 0)))))

/-- One event, one atomic step (rules R58, R60). -/
def runEvent (e : Event) (s : State) : Outcome :=
  match e with
  | .rxByte b => rxByte b s
  | .tick => tick s
  | .setTemp t => .next (setTemp t s)
  | .hwReset => .next (hwReset s)

/-- The next event of the environment's list; with none, the block waits (rules R37, R210, log 7). -/
def nextEvent (s : State) : Outcome :=
  match s.events with
  | [] => .next s
  | e :: es => runEvent e (s.setEvents es)

/-- The block as it stands when the sixth byte of frame `bs` is about to arrive (log 14). -/
def loadCommand (bs : List Byte) (s : State) : State :=
  match bs with
  | [b0, b1, b2, b3, b4, b5] =>
    { s with
      rxBuf := ((((s.rxBuf.set 0 b0).set 1 b1).set 2 b2).set 3 b3).set 4 b4
      rxCnt := 5
      events := .rxByte b5 :: s.events }
  | _ => s

/-- A configuration in which a tick serves sensor `k` alone, unfiltered, over binary32, and its model is the identity (log 14). -/
def aloneCfg (k : Kind) (c : Cfg) : Cfg :=
  let one := .b32 binary32.one
  let zero := .b32 binary32.zero
  let only (j : Kind) : SensorCfg := { c.sensor.get j with present := decide (j = k), filter := .none }
  { c with
    sensor := { temp := only .temp, ph := only .ph, tds := only .tds }
    ph := { c.ph with k := one }
    tds := { a3 := zero, a2 := zero, a1 := one, a0 := zero, tempCoeff := zero, factor := one, defProbe := one }
    num := .binary32
    q10 := .ofNum }

/-- The block as it stands when a tick is about to issue the telemetry frame of kind `k` with field `value`: the
sensor's next raw sample is `value / 10` (log 14). -/
def loadTelemetry (k : Kind) (value : Half) (s : State) : State :=
  { s with
    cfg := aloneCfg k s.cfg
    phMode := .basic
    phZeroOffset := .b32 binary32.zero
    tdsProbe := .b32 binary32.one
    tdsTemp := .b32 binary32.twentyFive
    rawAns := s.rawAns.set k (.b32 (argTenths binary32 value) :: s.rawAns.get k)
    events := .tick :: s.events }

/-- The state in which the very next step runs the frame of a table word: a command frame is completed by its sixth
byte, a telemetry frame is issued by a tick (rules R82, R86, log 14). -/
def loadWord (nbits w : Nat) (s : State) : State :=
  match decode s.cfg.codes (tableFrame nbits w) with
  | .instr (.tlmTemp v) => loadTelemetry .temp v s
  | .instr (.tlmPh v) => loadTelemetry .ph v s
  | .instr (.tlmTds v) => loadTelemetry .tds v s
  | _ => loadCommand (tableFrame nbits w) s

end Sys2Proof.Machine
end

