-- ==== Sys2Proof/Machine/Step.lean ====
section
/-! DEFINITION. One step of the block: one event of the environment, on a block whose configuration is legal. -/

namespace Sys2Proof.Machine

open Sys2Proof

/-- One step of the block (rules R58, R60) with the configuration as an argument (rule R6). A block with an illegal
configuration does not exist (rule R212). -/
def stepUnder (c : Cfg) (s : State) : Host.Outcome State Fault Refusal :=
  if c.legal then nextEvent { s with cfg := c } else .refused .illegalConfiguration

/-- One step with the configuration the state holds: the host's step has no other argument (log 8). -/
def step (s : State) : Host.Outcome State Fault Refusal := stepUnder s.cfg s

/-- `s` with the instruction of a table word laid where the very next step runs it (log 14). -/
def State.withFetchWord (s : State) (nbits w : Nat) : State := loadWord nbits w s

end Sys2Proof.Machine
end

