-- ==== Sys2Proof/Safety.lean ====
section
/-! DEFINITION. What a good state, a typed state and a good transmit stream are: the terms the statements use. -/

namespace Sys2Proof.Machine

open Sys2Proof

/-- The transmit stream is a concatenation of valid 5-byte frames and nothing else (rules R80, R179). -/
def framed (pfx : Byte) : List Byte → Bool
  | [] => true
  | b0 :: b1 :: b2 :: b3 :: b4 :: rest => validFrame pfx 5 [b0, b1, b2, b3, b4] && framed pfx rest
  | _ => false

/-- The window of sensor `k` holds exactly `C(s)` values and its cursor names one of them, where the sensor is present
and has a filter (rules R25 to R27). -/
def windowOk (k : Kind) (s : State) : Bool :=
  !s.present k || s.filter k == .none ||
    (decide ((s.regs k).buf.length = s.cap k) && decide ((s.regs k).cur < s.cap k))

/-- The invariant of the block: a legal configuration (rule R212), full windows (rule R27), and a transmit stream of
whole valid frames (rule R179). -/
def BlockInv (s : State) : Bool :=
  s.cfg.legal && windowOk .temp s && windowOk .ph s && windowOk .tds s && framed s.cfg.codes.pfx s.tx

/-- Whether every number of a sensor's registers is one of the configured type. -/
def SensorRegs.typed (m : NumSel) (r : SensorRegs) : Bool := m.holds r.value && r.buf.all m.holds

/-- Whether the number an event carries is one of the configured type. -/
def Event.typed (m : NumSel) : Event → Bool
  | .setTemp t => m.holds t
  | .rxByte _ | .tick | .hwReset => true

/-- Whether every constant of the configuration is a number of the configured type. -/
def cfgTyped (c : Cfg) : Bool :=
  c.num.holds c.sensor.temp.initial && c.num.holds c.sensor.ph.initial && c.num.holds c.sensor.tds.initial &&
    [c.ph.k, c.ph.defLow, c.ph.defMid, c.ph.defHigh, c.tds.a3, c.tds.a2, c.tds.a1, c.tds.a0, c.tds.tempCoeff, c.tds.factor,
      c.tds.defProbe].all c.num.holds

/-- "Every sample, filtered value, calibration coefficient and physical value is a value of one number type `Num`" (rule R7):
all the numbers the state holds are of the type the configuration names. -/
def typed (s : State) : Bool :=
  cfgTyped s.cfg && s.sensor.temp.typed s.cfg.num && s.sensor.ph.typed s.cfg.num && s.sensor.tds.typed s.cfg.num &&
    [s.phZeroOffset, s.phLow, s.phMid, s.phHigh, s.tdsProbe, s.tdsTemp].all s.cfg.num.holds &&
    (s.rawAns.temp ++ s.rawAns.ph ++ s.rawAns.tds).all s.cfg.num.holds && s.events.all (Event.typed s.cfg.num)

/-- A state from which the next step goes on. No rule of the spec lets the block stop (rules R193, R200). -/
def Safe (s : State) : Prop := ∃ t, step s = .next t

/-- `t` is `s` after one `RAW(s)` invocation of kind `k` that was answered `v`: by the next scripted answer, which is
used up, or, with none scripted, by a free value (rules R9, R58, U11). The request is on the output trace. -/
def rawAnswered (k : Kind) (v : Number) (s t : State) : Prop :=
  (∃ rest, s.rawAns.get k = v :: rest ∧
      t = { s with rawAns := s.rawAns.set k rest, rawLog := s.rawLog ++ [k] }) ∨
    (s.rawAns.get k = [] ∧ v = s.cfg.num.cast (Config.rawAnswer k s.free) ∧
      t = { s with rawLog := s.rawLog ++ [k], free := s.free + 1 })

/-- The calibration registers, `ph_mode` and the ambient temperature (rules R28 to R34). -/
structure Calibration where
  phMode : PhMode
  phZeroOffset : Number
  phLow : Number
  phMid : Number
  phHigh : Number
  tdsProbe : Number
  tdsTemp : Number
  deriving DecidableEq, Repr

/-- The calibration a state holds. -/
def calibration (s : State) : Calibration where
  phMode := s.phMode
  phZeroOffset := s.phZeroOffset
  phLow := s.phLow
  phMid := s.phMid
  phHigh := s.phHigh
  tdsProbe := s.tdsProbe
  tdsTemp := s.tdsTemp

/-- Whether a window of binary32 numbers holds both zeros, the only different numbers that compare equal (rule R114). -/
def bothZeros (buf : List Num32) : Bool :=
  buf.any (fun x => fIsZero x && fNeg x) && buf.any (fun x => fIsZero x && !fNeg x)

/-- The value of a finite number, as a rational (rule R7, decision D6). -/
def fValue (x : Num32) : ℚ := (if fNeg x then -1 else 1) * (fSig x : ℚ) * 2 ^ fExp x / 2 ^ 150

end Sys2Proof.Machine
end

