-- ==== Sys2Proof/Certificates/Slice0/Obligations.lean ====
section
/-! DEFINITION. The statements for the provers. A statement about a next state gives the whole next state wherever it is
an equation `exec i s = .next …`: what the record update does not name is unchanged. -/

open Sys2Proof Sys2Proof.Machine

/-! ### The Frame Codec -/

/-- R90: the checksum is the sum of the bytes modulo 256, whatever their order. -/
def Obligations.ChecksumIsTheSumModulo256 : Prop :=
  (∀ bs : List Byte, (checksum bs).toNat = (bs.map BitVec.toNat).sum % 256) ∧
  (∀ bs bs' : List Byte, bs.Perm bs' → checksum bs = checksum bs') ∧
  checksum [] = 0x00 ∧ checksum [0xFF, 0x01] = 0x00 ∧
  (∀ n, checksum (List.replicate n 0x00) = 0x00) ∧
  checksum [0x53, 0x01, 0x00, 0x00] = 0x54

/-- R97: both coders round trip, in both directions, for every byte of every field (the converse half is the spec's
own derivation from R91 to R94). -/
def Obligations.EncodedFramesDecodeBack : Prop :=
  (∀ pfx k p0 p1 p2 : Byte,
    dec6 pfx (enc6 pfx k p0 p1 p2) = .frame { kind := k, command := p0, argHi := p1, argLo := p2 }) ∧
  (∀ pfx k v0 v1 : Byte, dec5 pfx (enc5 pfx k v0 v1) = .frame { kind := k, valueHi := v0, valueLo := v1 }) ∧
  (∀ (pfx k c a b : Byte) (bs : List Byte),
    dec6 pfx bs = .frame { kind := k, command := c, argHi := a, argLo := b } → enc6 pfx k c a b = bs) ∧
  (∀ (pfx k a b : Byte) (bs : List Byte),
    dec5 pfx bs = .frame { kind := k, valueHi := a, valueLo := b } → enc5 pfx k a b = bs)

/-- R93, R94: length, then prefix, then checksum, each failure under its own name. -/
def Obligations.DecoderReportsTheFirstFailingTest : Prop :=
  (∀ (pfx : Byte) (bs : List Byte), bs.length ≠ 6 → dec6 pfx bs = .error .badLength) ∧
  (∀ pfx b0 b1 b2 b3 b4 b5 : Byte,
    (b0 ≠ pfx → dec6 pfx [b0, b1, b2, b3, b4, b5] = .error .badPrefix) ∧
    (b0 = pfx → b5 ≠ b0 + b1 + b2 + b3 + b4 → dec6 pfx [b0, b1, b2, b3, b4, b5] = .error .checksumMismatch) ∧
    (b0 = pfx → b5 = b0 + b1 + b2 + b3 + b4 →
      dec6 pfx [b0, b1, b2, b3, b4, b5] = .frame { kind := b1, command := b2, argHi := b3, argLo := b4 })) ∧
  (∀ (pfx : Byte) (bs : List Byte), bs.length ≠ 5 → dec5 pfx bs = .error .badLength) ∧
  (∀ pfx b0 b1 b2 b3 b4 : Byte,
    (b0 ≠ pfx → dec5 pfx [b0, b1, b2, b3, b4] = .error .badPrefix) ∧
    (b0 = pfx → b4 ≠ b0 + b1 + b2 + b3 → dec5 pfx [b0, b1, b2, b3, b4] = .error .checksumMismatch) ∧
    (b0 = pfx → b4 = b0 + b1 + b2 + b3 →
      dec5 pfx [b0, b1, b2, b3, b4] = .frame { kind := b1, valueHi := b2, valueLo := b3 }))

/-- R98: what the checksum detects in a valid frame of either shape, and what it cannot detect (a derivation of the
spec's own, from R90). -/
def Obligations.ChecksumDetectsOneAlteredByte : Prop :=
  (∀ (pfx b : Byte) (f : List Byte), validFrame pfx 6 f = true →
    (f[5]? ≠ some b → dec6 pfx (f.set 5 b) = .error .checksumMismatch) ∧
    (f[0]? ≠ some b → dec6 pfx (f.set 0 b) = .error .badPrefix) ∧
    (∀ i, 1 ≤ i → i ≤ 4 → f[i]? ≠ some b → dec6 pfx (f.set i b) = .error .checksumMismatch)) ∧
  (∀ (pfx b : Byte) (f : List Byte), validFrame pfx 5 f = true →
    (f[4]? ≠ some b → dec5 pfx (f.set 4 b) = .error .checksumMismatch) ∧
    (f[0]? ≠ some b → dec5 pfx (f.set 0 b) = .error .badPrefix) ∧
    (∀ i, 1 ≤ i → i ≤ 3 → f[i]? ≠ some b → dec5 pfx (f.set i b) = .error .checksumMismatch)) ∧
  (∀ (pfx c : Byte) (p p' : List Byte), p.Perm p' →
    validFrame pfx (p.length + 2) (pfx :: p ++ [c]) = true →
    validFrame pfx (p'.length + 2) (pfx :: p' ++ [c]) = true) ∧
  (∃ (f g : Frame6) (bs : List Byte),
    dec6 0x53 bs = .frame f ∧ dec6 0x53 ((bs.set 1 0x01).set 2 0x01) = .frame g ∧ f ≠ g)

/-- R80, R93, R94: the decoders accept exactly the valid frames of their shape. -/
def Obligations.DecodersAcceptExactlyValidFrames : Prop :=
  (∀ (pfx : Byte) (bs : List Byte), validFrame pfx 6 bs = true ↔ ∃ f, dec6 pfx bs = .frame f) ∧
  (∀ (pfx : Byte) (bs : List Byte), validFrame pfx 5 bs = true ↔ ∃ f, dec5 pfx bs = .frame f)

/-- Decode and encode agree: every instruction, under every legal code assignment, decodes from its encoding, with its
operand at every value. -/
def Obligations.DecodeOfEncodeIsTheInstruction : Prop :=
  ∀ (c : Codes) (i : Instr), c.wellFormed = true → i.wellFormed = true → decode c (encode c i) = .instr i

/-- Every byte sequence the decoder reads as an instruction is that instruction's encoding: each word has one meaning. -/
def Obligations.EncodeOfDecodeIsTheBytes : Prop :=
  ∀ (c : Codes) (bs : List Byte) (i : Instr), decode c bs = .instr i → encode c i = bs

/-- R84: the 18 command frames and the 3 telemetry frames of the opcode map, at every argument (the code values are
the spec's own decisions D3, D4, D5). -/
def Obligations.OpcodeMapDecodes : Prop :=
  ∀ a b : Byte,
    decode Codes.default [0x53, 0x00, 0x00, a, b, 0x53 + 0x00 + 0x00 + a + b] = .instr (.tempReset (a ++ b)) ∧
    decode Codes.default [0x53, 0x00, 0x01, a, b, 0x53 + 0x00 + 0x01 + a + b] = .instr (.tempCalibrate (a ++ b)) ∧
    decode Codes.default [0x53, 0x00, 0x02, a, b, 0x53 + 0x00 + 0x02 + a + b] = .instr (.tempCalLow (a ++ b)) ∧
    decode Codes.default [0x53, 0x00, 0x03, a, b, 0x53 + 0x00 + 0x03 + a + b] = .instr (.tempCalMid (a ++ b)) ∧
    decode Codes.default [0x53, 0x00, 0x04, a, b, 0x53 + 0x00 + 0x04 + a + b] = .instr (.tempCalHigh (a ++ b)) ∧
    decode Codes.default [0x53, 0x00, 0x05, a, b, 0x53 + 0x00 + 0x05 + a + b] = .instr (.tempSetMode (a ++ b)) ∧
    decode Codes.default [0x53, 0x01, 0x00, a, b, 0x53 + 0x01 + 0x00 + a + b] = .instr (.phReset (a ++ b)) ∧
    decode Codes.default [0x53, 0x01, 0x01, a, b, 0x53 + 0x01 + 0x01 + a + b] = .instr (.phCalibrate (a ++ b)) ∧
    decode Codes.default [0x53, 0x01, 0x02, a, b, 0x53 + 0x01 + 0x02 + a + b] = .instr (.phCalLow (a ++ b)) ∧
    decode Codes.default [0x53, 0x01, 0x03, a, b, 0x53 + 0x01 + 0x03 + a + b] = .instr (.phCalMid (a ++ b)) ∧
    decode Codes.default [0x53, 0x01, 0x04, a, b, 0x53 + 0x01 + 0x04 + a + b] = .instr (.phCalHigh (a ++ b)) ∧
    decode Codes.default [0x53, 0x01, 0x05, a, b, 0x53 + 0x01 + 0x05 + a + b] = .instr (.phSetMode (a ++ b)) ∧
    decode Codes.default [0x53, 0x02, 0x00, a, b, 0x53 + 0x02 + 0x00 + a + b] = .instr (.tdsReset (a ++ b)) ∧
    decode Codes.default [0x53, 0x02, 0x01, a, b, 0x53 + 0x02 + 0x01 + a + b] = .instr (.tdsCalibrate (a ++ b)) ∧
    decode Codes.default [0x53, 0x02, 0x02, a, b, 0x53 + 0x02 + 0x02 + a + b] = .instr (.tdsCalLow (a ++ b)) ∧
    decode Codes.default [0x53, 0x02, 0x03, a, b, 0x53 + 0x02 + 0x03 + a + b] = .instr (.tdsCalMid (a ++ b)) ∧
    decode Codes.default [0x53, 0x02, 0x04, a, b, 0x53 + 0x02 + 0x04 + a + b] = .instr (.tdsCalHigh (a ++ b)) ∧
    decode Codes.default [0x53, 0x02, 0x05, a, b, 0x53 + 0x02 + 0x05 + a + b] = .instr (.tdsSetMode (a ++ b)) ∧
    decode Codes.default [0x53, 0x00, a, b, 0x53 + 0x00 + a + b] = .instr (.tlmTemp (a ++ b)) ∧
    decode Codes.default [0x53, 0x01, a, b, 0x53 + 0x01 + a + b] = .instr (.tlmPh (a ++ b)) ∧
    decode Codes.default [0x53, 0x02, a, b, 0x53 + 0x02 + a + b] = .instr (.tlmTds (a ++ b))

/-- A few words of the opcode map written out, one or two a family (R84's rows with the arguments of R91's and R92's
worked examples) (the code values are the spec's own decisions D3, D4, D5). -/
def Obligations.WrittenWordsDecode : Prop :=
  decode Codes.default [0x53, 0x00, 0x00, 0x00, 0x00, 0x53] = .instr (.tempReset 0) ∧
  decode Codes.default [0x53, 0x01, 0x05, 0x00, 0x01, 0x5A] = .instr (.phSetMode 1) ∧
  decode Codes.default [0x53, 0x02, 0x01, 0x1B, 0x9E, 0x0F] = .instr (.tdsCalibrate 7070) ∧
  decode Codes.default [0x53, 0x01, 0x00, 0x46, 0x9A] = .instr (.tlmPh 70)

/-! ### The receive path -/

/-- A step runs the decoded instruction: when the byte that arrives completes a chunk that decodes to `i`, the step
is `exec i` on the state whose receive registers hold the chunk and whose event is taken (R99, R174) (the cutting
into chunks is the spec's own decision D8). -/
def Obligations.StepRunsTheDecodedCommand : Prop :=
  ∀ (s : State) (b : Byte) (es : List Event) (i : Instr),
    s.cfg.legal = true → s.events = .rxByte b :: es → s.rxCnt = 5 →
    decode s.cfg.codes (s.rxBuf.set 5 b).toList = .instr i →
    step s = exec i { s with events := es, rxBuf := s.rxBuf.set 5 b, rxCnt := 0 }

/-- R99: a received byte is stored at `rx_cnt`; the first five only count; the sixth has the chunk judged, and an
accepted frame is dispatched with its three fields, a rejected one dropped (the cutting into chunks is the spec's
own decision D8). -/
def Obligations.ReceivedByteFillsTheChunk : Prop :=
  ∀ (s : State) (b : Byte) (es : List Event), s.cfg.legal = true → s.events = .rxByte b :: es →
    (∀ h : s.rxCnt.val < 5, step s = .next
      { s with
        events := es
        rxBuf := s.rxBuf.set s.rxCnt.val b
        rxCnt := ⟨s.rxCnt.val + 1, Nat.succ_lt_succ h⟩ }) ∧
    (s.rxCnt = 5 →
      (∀ f, dec6 s.cfg.codes.pfx (s.rxBuf.set 5 b).toList = .frame f →
        step s = dispatch f.kind f.command (f.argHi ++ f.argLo)
          { s with events := es, rxBuf := s.rxBuf.set 5 b, rxCnt := 0 }) ∧
      (∀ e, dec6 s.cfg.codes.pfx (s.rxBuf.set 5 b).toList = .error e →
        step s = .next { s with events := es, rxBuf := s.rxBuf.set 5 b, rxCnt := 0 }))

/-- R194: the complete effect of a chunk that is not a valid frame. -/
def Obligations.InvalidChunkIsDropped : Prop :=
  ∀ (s : State) (b : Byte) (es : List Event), s.cfg.legal = true → s.events = .rxByte b :: es → s.rxCnt = 5 →
    validFrame s.cfg.codes.pfx 6 (s.rxBuf.set 5 b).toList = false →
    step s = .next { s with events := es, rxBuf := s.rxBuf.set 5 b, rxCnt := 0 }

/-- R174: dispatch matches both bytes: the one rule of the selected pair where the kind's sensor is present, and
nothing in every other case (that nothing happens where nothing matches is the spec's own decision D10). -/
def Obligations.DispatchSelectsTheMatchingCommand : Prop :=
  ∀ (kb cb : Byte) (arg : Half) (s : State), s.cfg.codes.wellFormed = true →
    (∀ (k : Kind) (m : Command), s.cfg.codes.kindCode k = kb → s.cfg.codes.cmdCode m = cb →
      (s.cfg.sensor.get k).present = true →
      dispatch kb cb arg s = exec (Instr.ofCommand k m arg) s) ∧
    ((∀ k : Kind, s.cfg.codes.kindCode k = kb → (s.cfg.sensor.get k).present = false) →
      dispatch kb cb arg s = .next s) ∧
    ((∀ m : Command, s.cfg.codes.cmdCode m ≠ cb) → dispatch kb cb arg s = .next s)

/-- R81: a valid frame with an unassigned kind or command byte, or for an absent sensor, has no effect; with the
default codes the unassigned pairs are kind bytes from 3 and command bytes from 6 (the spec's own decision D10, log
17). -/
def Obligations.UnassignedFrameHasNoEffect : Prop :=
  (∀ (s : State) (b : Byte) (es : List Event) (f : Frame6),
    s.cfg.legal = true → s.events = .rxByte b :: es → s.rxCnt = 5 →
    dec6 s.cfg.codes.pfx (s.rxBuf.set 5 b).toList = .frame f →
    ((∀ k : Kind, s.cfg.codes.kindCode k = f.kind → (s.cfg.sensor.get k).present = false) ∨
      (∀ m : Command, s.cfg.codes.cmdCode m ≠ f.command)) →
    step s = .next { s with events := es, rxBuf := s.rxBuf.set 5 b, rxCnt := 0 }) ∧
  (∀ (kb cb : Byte) (arg : Half),
    commandInstr Codes.default kb cb arg = none ↔ 3 ≤ kb.toNat ∨ 6 ≤ cb.toNat)

/-! ### The commands -/

/-- R140 to R145: no command changes anything of the Temperature sensor, and none samples it. -/
def Obligations.TemperatureCommandsChangeNothing : Prop :=
  ∀ (arg : Half) (s : State),
    exec (.tempReset arg) s = .next s ∧ exec (.tempCalibrate arg) s = .next s ∧
    exec (.tempCalLow arg) s = .next s ∧ exec (.tempCalMid arg) s = .next s ∧
    exec (.tempCalHigh arg) s = .next s ∧ exec (.tempSetMode arg) s = .next s

/-- R154 to R157: the TDS commands without a meaning change nothing. -/
def Obligations.TdsCommandsWithoutMeaningChangeNothing : Prop :=
  ∀ (arg : Half) (s : State),
    exec (.tdsCalLow arg) s = .next s ∧ exec (.tdsCalMid arg) s = .next s ∧
    exec (.tdsCalHigh arg) s = .next s ∧ exec (.tdsSetMode arg) s = .next s

/-- R81, R174: a command of an absent sensor changes nothing (the spec's own decision D10, log 17). -/
def Obligations.CommandOfAbsentSensorChangesNothing : Prop :=
  ∀ (k : Kind) (m : Command) (arg : Half) (s : State), (s.cfg.sensor.get k).present = false →
    exec (Instr.ofCommand k m arg) s = .next s

/-- R146: `PH.RESET` restores the registers of the current mode and no other. -/
def Obligations.PhResetRestoresTheCurrentMode : Prop :=
  ∀ (arg : Half) (s : State), s.cfg.sensor.ph.present = true →
    (s.phMode = .basic → exec (.phReset arg) s = .next { s with phZeroOffset := (cfgNum s.cfg).zero }) ∧
    (s.phMode = .advanced → exec (.phReset arg) s = .next
      { s with phLow := s.cfg.ph.defLow, phMid := s.cfg.ph.defMid, phHigh := s.cfg.ph.defHigh })

/-- R147: `PH.CALIBRATE` samples once and sets the offset to `7/k - v`, in either mode (the fresh sample and the
mode's being ignored are the spec's own decisions D17, D18). -/
def Obligations.PhCalibrateSetsTheOffset : Prop :=
  ∀ (arg : Half) (s : State), s.cfg.sensor.ph.present = true →
    ∃ v t, rawAnswered .ph v s t ∧ exec (.phCalibrate arg) s = .next
      { t with phZeroOffset :=
        (cfgModelNum s.cfg).sub ((cfgModelNum s.cfg).div (cfgModelNum s.cfg).seven s.cfg.ph.k) v }

/-- R148, R149, R150: each one-point calibration records one raw sample in its own register, in either mode (the
fresh sample and the mode's being ignored are the spec's own decisions D17, D18). -/
def Obligations.PhReferenceCommandsRecordTheVoltage : Prop :=
  ∀ (arg : Half) (s : State), s.cfg.sensor.ph.present = true →
    ∃ v t, rawAnswered .ph v s t ∧
      exec (.phCalLow arg) s = .next { t with phLow := v } ∧
      exec (.phCalMid arg) s = .next { t with phMid := v } ∧
      exec (.phCalHigh arg) s = .next { t with phHigh := v }

/-- R151: `PH.SETMODE` writes `ph_mode` only: 0 Basic, 1 Advanced, any other argument nothing (the reading of the
argument is the spec's own decision D20). -/
def Obligations.PhSetModeReadsTheArgument : Prop :=
  ∀ (arg : Half) (s : State), s.cfg.sensor.ph.present = true →
    (arg.toNat = 0 → exec (.phSetMode arg) s = .next { s with phMode := .basic }) ∧
    (arg.toNat = 1 → exec (.phSetMode arg) s = .next { s with phMode := .advanced }) ∧
    (2 ≤ arg.toNat → exec (.phSetMode arg) s = .next s)

/-- R152: `TDS.RESET` restores the default probe constant and nothing else. -/
def Obligations.TdsResetRestoresTheProbe : Prop :=
  ∀ (arg : Half) (s : State), s.cfg.sensor.tds.present = true →
    exec (.tdsReset arg) s = .next { s with tdsProbe := s.cfg.tds.defProbe }

/-- R153: `TDS.CALIBRATE` samples once and solves for the probe constant, in the order of operations the rule gives
(the order of operations is the spec's own, decisions D17, D24, D25, D26). -/
def Obligations.TdsCalibrateSolvesForTheProbe : Prop :=
  ∀ (arg : Half) (s : State), s.cfg.sensor.tds.present = true →
    ∃ v t, rawAnswered .tds v s t ∧
      let N := cfgModelNum s.cfg
      let c := s.cfg.tds
      let ref := N.div (N.ofNat arg.toNat) N.ten
      let ecRef := N.div ref c.factor
      let comp := N.add N.one (N.mul c.tempCoeff (N.sub s.tdsTemp N.twentyFive))
      let poly := N.add (N.add (N.add (N.mul (N.mul (N.mul c.a3 v) v) v) (N.mul (N.mul c.a2 v) v)) (N.mul c.a1 v)) c.a0
      exec (.tdsCalibrate arg) s = .next { t with tdsProbe := N.div (N.mul ecRef comp) poly }

/-- R71, R84, R175: a telemetry frame of a present sensor appends its five bytes to `tx`; one of an absent sensor
appends none. That the meaning of a telemetry instruction is its emission is the model's reading (log 12). -/
def Obligations.TelemetryFrameAppendsItsBytes : Prop :=
  ∀ (k : Kind) (v : Half) (s : State),
    ((s.cfg.sensor.get k).present = true → exec (Instr.ofTelemetry k v) s = .next
      { s with tx := s.tx ++
        [s.cfg.codes.pfx, s.cfg.codes.kindCode k, BitVec.ofNat 8 (v.toNat / 256), BitVec.ofNat 8 v.toNat,
          s.cfg.codes.pfx + s.cfg.codes.kindCode k + BitVec.ofNat 8 (v.toNat / 256) + BitVec.ofNat 8 v.toNat] }) ∧
    ((s.cfg.sensor.get k).present = false → exec (Instr.ofTelemetry k v) s = .next s) ∧
    exec (.tlmTemp v) s = exec (Instr.ofTelemetry .temp v) s ∧
    exec (.tlmPh v) s = exec (Instr.ofTelemetry .ph v) s ∧
    exec (.tlmTds v) s = exec (Instr.ofTelemetry .tds v) s

/-- R158: a command writes only the calibration of its own kind and samples only its own kind; it touches no stored
value, no window, no receive register, no transmitted byte, no ambient temperature and no configuration. -/
def Obligations.CommandIsIsolated : Prop :=
  ∀ (k : Kind) (m : Command) (arg : Half) (s t : State), exec (Instr.ofCommand k m arg) s = .next t →
    t.sensor = s.sensor ∧ t.tx = s.tx ∧ t.rxBuf = s.rxBuf ∧ t.rxCnt = s.rxCnt ∧ t.cfg = s.cfg ∧
    t.events = s.events ∧ t.tdsTemp = s.tdsTemp ∧
    (k ≠ .ph → t.phMode = s.phMode ∧ t.phZeroOffset = s.phZeroOffset ∧ t.phLow = s.phLow ∧ t.phMid = s.phMid ∧
      t.phHigh = s.phHigh) ∧
    (k ≠ .tds → t.tdsProbe = s.tdsProbe) ∧
    (∀ j, j ≠ k → t.rawAns.get j = s.rawAns.get j) ∧
    (t.rawLog = s.rawLog ∨ t.rawLog = s.rawLog ++ [k])

/-- R221 (derived there): a command sent again with the same argument, its sensor's signal unchanged, leaves the
calibration as the first left it. -/
def Obligations.CommandsAreIdempotent : Prop :=
  ∀ (k : Kind) (m : Command) (arg : Half) (v : Number) (rest : List Number) (s t u : State),
    s.rawAns.get k = v :: v :: rest →
    exec (Instr.ofCommand k m arg) s = .next t → exec (Instr.ofCommand k m arg) t = .next u →
    calibration u = calibration t

/-! ### The models, the filter and the sensors -/

/-- R170, with R131 to R136: `UPDATE` samples once and stores the value of the active model, written out (the strict
comparison, the cubic's form and the compensation's direction are the spec's own decisions D22, D24, D25). -/
def Obligations.UpdateStoresTheModelsValue : Prop :=
  ∀ s : State,
    let N := cfgModelNum s.cfg
    (∃ r t, rawAnswered .temp r s t ∧
      updateSensor .temp s = { t with sensor := { s.sensor with temp := { s.sensor.temp with value := r } } }) ∧
    (s.phMode = .basic → ∃ v t, rawAnswered .ph v s t ∧
      updateSensor .ph s = { t with sensor := { s.sensor with ph := { s.sensor.ph with
        value := N.mul s.cfg.ph.k (N.add v s.phZeroOffset) } } }) ∧
    (s.phMode = .advanced → ∃ v t, rawAnswered .ph v s t ∧
      updateSensor .ph s = { t with sensor := { s.sensor with ph := { s.sensor.ph with
        value :=
          if N.lt s.phMid v then
            N.sub N.seven
              (N.mul (N.div N.three (N.sub s.phMid s.phHigh)) (N.sub v s.phMid))
          else
            N.sub N.seven
              (N.mul (N.div N.three (N.sub s.phLow s.phMid))
                (N.sub v s.phMid)) } } }) ∧
    (∃ v t, rawAnswered .tds v s t ∧
      let c := s.cfg.tds
      let comp := N.add N.one (N.mul c.tempCoeff (N.sub s.tdsTemp N.twentyFive))
      let poly := N.add (N.add (N.add (N.mul (N.mul (N.mul c.a3 v) v) v) (N.mul (N.mul c.a2 v) v)) (N.mul c.a1 v)) c.a0
      updateSensor .tds s = { t with sensor := { s.sensor with tds := { s.sensor.tds with
        value := N.mul (N.mul (N.div poly comp) s.tdsProbe) c.factor } } })

/-- R171: `READ` answers the stored value, through one push where there is a filter; the stored value stays. -/
def Obligations.ReadPassesTheValueThroughTheFilter : Prop :=
  ∀ (k : Kind) (s : State),
    ((s.cfg.sensor.get k).filter = .none → readSensor k s = ((s.sensor.get k).value, s)) ∧
    ((s.cfg.sensor.get k).filter ≠ .none → readSensor k s = push k (s.sensor.get k).value s) ∧
    ((readSensor k s).2.sensor.get k).value = (s.sensor.get k).value

/-- R110, R112, R113: a push overwrites the slot at the cursor, advances the cursor, and answers the aggregate of the new
window; nothing else of the block changes. Where `<f` orders the window the median is that of an ascending sequence of the
window's own elements, which is every window without a NaN; elements that compare equal stand in either order, and with a
NaN the answer is a free value (the cursor's start and the order of the sum are
the spec's own decisions D11, D12; the even median is D14; log 5). -/
def Obligations.PushOverwritesOneSlot : Prop :=
  ∀ (k : Kind) (x : Number) (s : State),
    let N := cfgNum s.cfg
    let r := s.sensor.get k
    let c := (s.cfg.sensor.get k).cap
    let w := r.buf.set r.cur x
    let sensor' := s.sensor.set k { r with buf := w, cur := (r.cur + 1) % c }
    ((s.cfg.sensor.get k).filter = .mean →
      push k x s = (N.div (w.foldl N.add N.zero) (N.ofNat c), { s with sensor := sensor' })) ∧
    ((s.cfg.sensor.get k).filter = .median →
      (push k x s).2 = { s with sensor := sensor', free := s.free + 1 } ∧
      (orders N w = true → ∃ srt : List Number, srt.Perm w ∧
        (∀ (j : Nat) (y z : Number), srt[j]? = some y → srt[j + 1]? = some z → N.lt z y = false) ∧
        (push k x s).1 = medianOf N c srt) ∧
      (orders N w = false → (push k x s).1 = s.cfg.num.cast (Config.medianNaN s.free)) ∧
      (s.cfg.num = .binary32 → (orders N w = true ↔ w.any (fun y => fIsNaN y.toB32) = false)) ∧
      (s.cfg.num = .exact → orders N w = true))

/-- R111: after pushes of `xs` onto a fresh window of `C` copies of `INIT`: with fewer than `C` of them the window
is those and then the initial value; with `C` or more it holds the last `C`, the most recent just behind the cursor
(a derivation of the spec's own, with decision D11). -/
def Obligations.WindowHoldsTheLastPushes : Prop :=
  ∀ (k : Kind) (xs : List Number) (v : Number) (s : State),
    let c := (s.cfg.sensor.get k).cap
    (s.cfg.sensor.get k).filter ≠ .none → 1 ≤ c →
    s.sensor.get k = { value := (s.sensor.get k).value, buf := List.replicate c v, cur := 0 } →
    let t := xs.foldl (fun s x => (push k x s).2) s
    let r := t.sensor.get k
    r.cur = xs.length % c ∧
    (xs.length < c → r.buf = xs ++ List.replicate (c - xs.length) v) ∧
    (c ≤ xs.length → r.buf.length = c ∧
      ∀ j, j < c → r.buf[(r.cur + (c - 1 - j)) % c]? = xs[xs.length - 1 - j]?)

/-- R114: wherever `<f` is an order the sort answers the same elements in ascending order, and the ascending order is unique
but for elements that compare equal; under binary32 that is every window without a NaN, and the elements are zeros of either
sign (decision D13 of the spec). -/
def Obligations.SortIsTheAscendingOrder : Prop :=
  (∀ (α : Type) (N : Config.Numerics α) (a : List α), orders N a = true →
    (sortAsc N a).Perm a ∧
    (∀ (j : Nat) (x y : α), (sortAsc N a)[j]? = some x → (sortAsc N a)[j + 1]? = some y → N.lt y x = false) ∧
    (∀ b : List α, b.Perm a →
      (∀ (j : Nat) (x y : α), b[j]? = some x → b[j + 1]? = some y → N.lt y x = false) →
      ∀ (j : Nat) (x y : α), (sortAsc N a)[j]? = some x → b[j]? = some y → N.lt x y = false ∧ N.lt y x = false)) ∧
  (∀ (α : Type) (N : Config.Numerics α), (∀ x y, N.lt x y = true → N.lt y x = false) →
    (∀ x y z, N.lt x z = true → N.lt x y = true ∨ N.lt y z = true) → ∀ a : List α, orders N a = true) ∧
  (∀ a : List Num32, a.any fIsNaN = false →
    (sortAsc binary32 a).Perm a ∧
    (∀ (j : Nat) (x y : Num32), (sortAsc binary32 a)[j]? = some x → (sortAsc binary32 a)[j + 1]? = some y →
      fLt y x = false) ∧
    (∀ b : List Num32, b.Perm a →
      (∀ (j : Nat) (x y : Num32), b[j]? = some x → b[j + 1]? = some y → fLt y x = false) →
      ∀ (j : Nat) (x y : Num32), (sortAsc binary32 a)[j]? = some x → b[j]? = some y →
        x = y ∨ (fIsZero x = true ∧ fIsZero y = true)))

/-- R113, R114, R115: which elements the median takes, over any window with no NaN: of some ascending sequence of the
window's own elements, each as often, the middle one for an odd `C`, and for an even `C` of 4 or more the mean of indices
`C/2` and `C/2 + 1`. With one sign of zero in the window the sequence is the one sorted copy (the even case is the spec's
own decision D14, the order of the two zeros is left open, U6, log 5). -/
def Obligations.MedianTakesTheRulesElements : Prop :=
  ∀ (nan : Num32) (n c : Nat) (buf : List Num32), buf.length = c → buf.any fIsNaN = false →
    ∃ srt : List Num32, srt.Perm buf ∧
      (∀ (j : Nat) (x y : Num32), srt[j]? = some x → srt[j + 1]? = some y → fLt y x = false) ∧
      (bothZeros buf = false → srt = sortAsc binary32 buf) ∧
      (c % 2 = 1 → some (aggMedian binary32 nan n c buf) = srt[c / 2]?) ∧
      (c % 2 = 0 → 4 ≤ c → ∀ x y, srt[c / 2]? = some x → srt[c / 2 + 1]? = some y →
        aggMedian binary32 nan n c buf = fDiv (fAdd x y) (fOfNat 2))

/-- R115 (its consequence for `C` = 8, over exact numbers): a window with `k` copies of a new level and `8 - k` of a
lower old one reports the old level for `k ≤ 2`, the mid-point for `k = 3` and the new level for `k ≥ 4` (the spec's
own decision D14). -/
def Obligations.EvenMedianIsBiasedUpward : Prop :=
  ∀ (lo hi : ℚ) (k : Nat) (buf : List ℚ), lo < hi → k ≤ 8 →
    buf.Perm (List.replicate k hi ++ List.replicate (8 - k) lo) →
    medianOf exactNum 8 (sortAsc exactNum buf) = if k ≤ 2 then lo else if k = 3 then (lo + hi) / 2 else hi

/-- R112 (over exact numbers): the mean's loop is the arithmetic mean of the entries (the order of the sum is the
spec's own decision D12). -/
def Obligations.MeanIsTheArithmeticMean : Prop :=
  ∀ buf : List ℚ, aggMean exactNum buf.length buf = buf.sum / buf.length

/-- R112: under IEEE numerics the mean of a window that holds a NaN is a NaN (the numerics are the spec's own
decision D6). -/
def Obligations.MeanOfANaNIsANaN : Prop :=
  ∀ (c : Nat) (buf : List Num32), buf.any fIsNaN = true → fIsNaN (aggMean binary32 c buf) = true

/-- R172: the kind tag is the sensor's own, sent as its code, and asking for it changes nothing. -/
def Obligations.KindIsTheSensorsTag : Prop :=
  ∀ (k : Kind) (s : State), kindTag k = k ∧ kindByte k s = s.cfg.codes.kind.get k

/-! ### The numerics and the calibration laws -/

/-- R7, D6: between finite numbers `<f` is the order of their values, and a NaN compares false (the numerics are the
spec's own decision D6). -/
def Obligations.ComparisonIsTheOrderOfValues : Prop :=
  (∀ a b : Num32, fIsFinite a = true → fIsFinite b = true → (fLt a b = true ↔ fValue a < fValue b)) ∧
  (∀ a b : Num32, fIsNaN a = true ∨ fIsNaN b = true → fLt a b = false)

/-- R7, D6: each operation is rounded once, to a nearest finite number, whenever its result is finite; and the models and
the calibration commands compute with the same operations wherever U3 leaves nothing open, that is but for a division by
zero, a NaN and an overflow, where the result is the free value of the operation and its operands (the numerics are the
spec's own decision D6; the form of the free value is the model's, log 3). -/
def Obligations.ArithmeticRoundsToNearest : Prop :=
  (∀ a b x : Num32, fIsFinite a = true → fIsFinite b = true → fIsFinite x = true →
    (fIsFinite (fAdd a b) = true →
      |fValue (fAdd a b) - (fValue a + fValue b)| ≤ |fValue x - (fValue a + fValue b)|) ∧
    (fIsFinite (fSub a b) = true →
      |fValue (fSub a b) - (fValue a - fValue b)| ≤ |fValue x - (fValue a - fValue b)|) ∧
    (fIsFinite (fMul a b) = true →
      |fValue (fMul a b) - fValue a * fValue b| ≤ |fValue x - fValue a * fValue b|) ∧
    (fIsZero b = false → fIsFinite (fDiv a b) = true →
      |fValue (fDiv a b) - fValue a / fValue b| ≤ |fValue x - fValue a / fValue b|)) ∧
  (∀ (op : ArithOp) (a b r : Num32), leftOpen op a b r = true ↔
    (op = .div ∧ fIsZero b = true) ∨ fIsNaN r = true ∨ (fIsInf r = true ∧ fIsInf a = false ∧ fIsInf b = false)) ∧
  (∀ a b : Num32,
    modelNum.add a b = (if leftOpen .add a b (fAdd a b) then Config.unspecified .add a b else fAdd a b) ∧
    modelNum.sub a b = (if leftOpen .sub a b (fSub a b) then Config.unspecified .sub a b else fSub a b) ∧
    modelNum.mul a b = (if leftOpen .mul a b (fMul a b) then Config.unspecified .mul a b else fMul a b) ∧
    modelNum.div a b = (if leftOpen .div a b (fDiv a b) then Config.unspecified .div a b else fDiv a b)) ∧
  modelNum = { binary32 with add := modelNum.add, sub := modelNum.sub, mul := modelNum.mul, div := modelNum.div } ∧
  (∀ c : Cfg, c.num = .binary32 → c.q10 = .ofNum →
    cfgNum c = liftNum .b32 Number.toB32 binary32 ∧ cfgModelNum c = liftNum .b32 Number.toB32 modelNum) ∧
  (∀ c : Cfg, c.num = .exact → c.q10 = .ofNum →
    cfgNum c = liftNum .exact Number.toRat exactNum ∧ cfgModelNum c = liftNum .exact Number.toRat exactModelNum)

/-- R77: `Q10` of a tenfold `t`: 0 for a NaN, 0 for `t ≤ 0`, 65535 for `t ≥ 65535`, else the integer part of `t`
(the rounding and the range are the spec's own decision D29, log 18). -/
def Obligations.Q10TruncatesAndSaturates : Prop :=
  ∀ p : Num32,
    let t := fMul p (fOfNat 10)
    (fIsNaN t = true → fQ10 p = 0) ∧
    (fIsNaN t = false → fLt (fOfNat 0) t = false → fQ10 p = 0) ∧
    (fIsNaN t = false → fLt t (fOfNat 65535) = false → fQ10 p = 65535) ∧
    (fLt (fOfNat 0) t = true → fLt t (fOfNat 65535) = true →
      ((fQ10 p).toNat : ℤ) = ⌊fValue t⌋ ∧ (fQ10 p).toNat ≤ 65534)

/-- R160 (a), (b) and R133, over exact numbers: a calibrated PH probe reads 7 at its calibration voltage; the
advanced lines map low, middle and high to 4, 7 and 10; a calibrated TDS probe reads its reference concentration
(derivations of the spec's own, with decisions D24, D25, D26). -/
def Obligations.CalibrationLawsOverExactNumbers : Prop :=
  (∀ k v : ℚ, k ≠ 0 → xformPhBasic exactNum k (phOffsetFor exactNum k v) v = 7) ∧
  (∀ low mid high : ℚ, low < mid → mid < high →
    xformPhAdv exactNum low mid high low = 4 ∧ xformPhAdv exactNum low mid high mid = 7 ∧
    xformPhAdv exactNum low mid high high = 10) ∧
  (∀ (c : TdsCfg ℚ) (temp v : ℚ) (arg : Half),
    tdsPoly exactNum c v ≠ 0 → tdsComp exactNum c temp ≠ 0 → c.factor ≠ 0 →
    xformTds exactNum c (tdsProbeFor exactNum c temp arg v) temp v = (arg.toNat : ℚ) / 10)

/-- R160 (a), under binary32: with `PH_K` = 3.5 the calibrated probe reads exactly 7.0 at every calibration voltage
from 0 to 4 (a derivation of the spec's own, with decision D6). -/
def Obligations.PhCalibrationReadsExactlySeven : Prop :=
  ∀ v : Num32, fIsNaN v = false → fLt v (fOfNat 0) = false → fLt (fOfNat 4) v = false →
    xformPhBasic modelNum 0x40600000 (phOffsetFor modelNum 0x40600000 v) v = 0x40E00000

/-- R133, under binary32: at the pivot the advanced model reads exactly 7.0 whenever its slope is finite (with the
spec's own decisions D6, D22). -/
def Obligations.AdvancedPivotReadsExactlySeven : Prop :=
  ∀ low mid high : Num32, fIsFinite mid = true →
    fIsFinite (modelNum.div modelNum.three (modelNum.sub low mid)) = true →
    xformPhAdv modelNum low mid high mid = 0x40E00000

/-- R136, under binary32: at the default ambient temperature 25 the compensation factor is exactly 1 (with the
spec's own decisions D6, D25). -/
def Obligations.CompensationIsOneAtTwentyFive : Prop :=
  ∀ c : TdsCfg Num32, fIsFinite c.tempCoeff = true → tdsComp modelNum c 0x41C80000 = 0x3F800000

/-! ### The events -/

/-- R175, R177: a tick serves Temperature, PH and TDS in that order, each before the next: an absent sensor not at
all; a present one by an update, a read, and the telemetry frame of `Q10` of what the read answered (the order is
the spec's own decision D31). -/
def Obligations.TickServesTheSensorsInOrder : Prop :=
  let share (k : Kind) (s : State) : Outcome :=
    if (s.cfg.sensor.get k).present then
      exec (Instr.ofTelemetry k ((cfgNum s.cfg).q10 (readSensor k (updateSensor k s)).1)) (readSensor k (updateSensor k s)).2
    else .next s
  ∀ (s : State) (es : List Event), s.cfg.legal = true → s.events = .tick :: es →
    ∃ u v t, share .temp { s with events := es } = .next u ∧ share .ph u = .next v ∧ share .tds v = .next t ∧
      step s = .next t

/-- R175, R176, R177: a tick always completes; it emits exactly one five-byte frame for every present sensor, in
order and unconditionally, samples each once, and touches no receive register, no calibration and no configuration
(the order and the policy are the spec's own decisions D30, D31). -/
def Obligations.TickEmitsOneFramePerPresentSensor : Prop :=
  ∀ (s : State) (es : List Event), s.cfg.legal = true → s.events = .tick :: es →
    let active : List Kind := [Kind.temp, .ph, .tds].filter fun k => (s.cfg.sensor.get k).present
    ∃ (t : State) (q : Kind → Half), step s = .next t ∧
      t.tx = s.tx ++ active.flatMap (fun k => enc5 s.cfg.codes.pfx (s.cfg.codes.kindCode k) (hiByte (q k)) (loByte (q k))) ∧
      t.rawLog = s.rawLog ++ active ∧
      t.rxBuf = s.rxBuf ∧ t.rxCnt = s.rxCnt ∧ calibration t = calibration s ∧ t.cfg = s.cfg ∧ t.events = es

/-- R131, R171, R175: an unfiltered Temperature sensor reports its raw sample: it becomes the stored value, and the
first new frame carries `Q10` of it (with the spec's own decisions D29, D31). -/
def Obligations.TickReportsTheRawTemperature : Prop :=
  ∀ (s : State) (es : List Event) (r : Number) (rest : List Number),
    s.cfg.legal = true → s.events = .tick :: es → s.cfg.sensor.temp.present = true →
    s.cfg.sensor.temp.filter = .none → s.rawAns.temp = r :: rest →
    ∃ t, step s = .next t ∧ t.sensor.temp = { s.sensor.temp with value := r } ∧
      (s.tx ++ encode s.cfg.codes (.tlmTemp ((cfgNum s.cfg).q10 r))) <+: t.tx

/-- R198: a tick and a byte that does not complete a chunk may come in either order, with the same end (the free
interleaving is the spec's own decision D33). -/
def Obligations.PartialFrameAndTickCommute : Prop :=
  ∀ (s : State) (b : Byte) (es : List Event), s.cfg.legal = true → s.rxCnt.val < 5 →
    ∃ t, Host.Core.run Sys2Proof.core 2 { s with events := .rxByte b :: .tick :: es } = .next t ∧
      Host.Core.run Sys2Proof.core 2 { s with events := .tick :: .rxByte b :: es } = .next t

/-- R137: `SETTEMP` writes `tds_temp`, and nothing where TDS is absent (the port is the spec's own decision D27). -/
def Obligations.SetTempWritesTheAmbientTemperature : Prop :=
  ∀ (s : State) (x : Number) (es : List Event), s.cfg.legal = true → s.events = .setTemp x :: es →
    (s.cfg.sensor.tds.present = true → step s = .next { s with events := es, tdsTemp := x }) ∧
    (s.cfg.sensor.tds.present = false → step s = .next { s with events := es })

/-- R210: `HWRESET` restores every register of every present sensor, discards a partly received frame, and leaves
`tx`, `rx_buf`, the configuration and everything of an absent sensor; it samples and emits nothing (the repeated
reset is the spec's own decision D35). -/
def Obligations.HardwareResetRestoresTableV : Prop :=
  ∀ (s : State) (es : List Event), s.cfg.legal = true → s.events = .hwReset :: es →
    ∃ t, step s = .next t ∧
      t.rxCnt = 0 ∧ t.rxBuf = s.rxBuf ∧ t.tx = s.tx ∧ t.cfg = s.cfg ∧ t.events = es ∧
      t.rawAns = s.rawAns ∧ t.rawLog = s.rawLog ∧ t.free = s.free ∧
      (∀ k : Kind,
        let c := s.cfg.sensor.get k
        (c.present = true → c.filter = .none → t.sensor.get k = { s.sensor.get k with value := c.initial }) ∧
        (c.present = true → c.filter ≠ .none →
          t.sensor.get k = { value := c.initial, buf := List.replicate c.cap c.initial, cur := 0 }) ∧
        (c.present = false → t.sensor.get k = s.sensor.get k)) ∧
      (s.cfg.sensor.ph.present = true →
        t.phMode = s.cfg.ph.initMode ∧ t.phZeroOffset = (cfgNum s.cfg).zero ∧ t.phLow = s.cfg.ph.defLow ∧
        t.phMid = s.cfg.ph.defMid ∧ t.phHigh = s.cfg.ph.defHigh) ∧
      (s.cfg.sensor.ph.present = false →
        t.phMode = s.phMode ∧ t.phZeroOffset = s.phZeroOffset ∧ t.phLow = s.phLow ∧ t.phMid = s.phMid ∧
        t.phHigh = s.phHigh) ∧
      (s.cfg.sensor.tds.present = true → t.tdsProbe = s.cfg.tds.defProbe ∧ t.tdsTemp = (cfgNum s.cfg).twentyFive) ∧
      (s.cfg.sensor.tds.present = false → t.tdsProbe = s.tdsProbe ∧ t.tdsTemp = s.tdsTemp)

/-- R42: the values of Table V after reset, for every configuration (the decided values are the spec's own, D8, D11,
D16, D21, D35; the choice of `Config.default` is the model's, log 9). -/
def Obligations.ResetStateHasTheValuesOfTableV : Prop :=
  ∀ c : Cfg,
    let s := State.initial c
    s.rxCnt = 0 ∧ s.tx = [] ∧
    (∀ k : Kind, (s.sensor.get k).value = (c.sensor.get k).initial ∧ (s.sensor.get k).cur = 0 ∧
      ((c.sensor.get k).filter ≠ .none →
        (s.sensor.get k).buf = List.replicate (c.sensor.get k).cap (c.sensor.get k).initial)) ∧
    s.phMode = c.ph.initMode ∧ s.phZeroOffset = (cfgNum c).zero ∧
    s.phLow = c.ph.defLow ∧ s.phMid = c.ph.defMid ∧ s.phHigh = c.ph.defHigh ∧
    s.tdsProbe = c.tds.defProbe ∧ s.tdsTemp = (cfgNum c).twentyFive ∧
    (c.num = .binary32 → (cfgNum c).zero = .b32 0x00000000 ∧ (cfgNum c).twentyFive = .b32 0x41C80000) ∧
    State.reset = State.initial Config.default ∧
    (∀ k : Kind, (Config.default.sensor.get k).initial = .b32 0x00000000 ∧ (Config.default.sensor.get k).cap = 8) ∧
    Config.default.ph.initMode = .basic ∧ Config.default.num = .binary32 ∧ Config.default.q10 = .ofNum

/-- With no event presented the block waits, unchanged (R37, R210; that the wait is a step is the model's choice, log 7). -/
def Obligations.BlockWaitsForAnEvent : Prop :=
  ∀ s : State, s.cfg.legal = true → s.events = [] → step s = .next s

/-! ### The whole machine -/

/-- R212: legality is exactly the rule's conditions, and a block with an illegal configuration is refused (the
spec's own decision D14; that the refusal is made by `step` is the model's choice, log 8). -/
def Obligations.IllegalConfigurationIsRefused : Prop :=
  (∀ c : Cfg, c.legal = true ↔
    (∀ j k : Kind, c.codes.kindCode j = c.codes.kindCode k → j = k) ∧
    (∀ m n : Command, c.codes.cmdCode m = c.codes.cmdCode n → m = n) ∧
    (∀ k : Kind, (c.sensor.get k).present = true → (c.sensor.get k).filter ≠ .none →
      1 ≤ (c.sensor.get k).cap ∧ ((c.sensor.get k).filter = .median → (c.sensor.get k).cap ≠ 2))) ∧
  (∀ s : State, s.cfg.legal = false → step s = .refused .illegalConfiguration)

/-- R193, R117, R200: no error stops the block: every step of a legal block goes on, whatever its state and input. -/
def Obligations.LegalBlockNeverStops : Prop :=
  ∀ s : State, s.cfg.legal = true → Safe s

/-- The invariant holds at reset, and right after the first reset of every legal block; and so does the typing of the
numbers, where the configuration's own constants are typed. -/
def Obligations.InvariantHoldsAtReset : Prop :=
  (BlockInv State.reset = true ∧ ∀ c : Cfg, c.legal = true → BlockInv (State.initial c) = true) ∧
  (typed State.reset = true ∧ ∀ c : Cfg, cfgTyped c = true → typed (State.initial c) = true)

/-- R27, R179, R212: every step keeps the windows full, the cursors in range, the transmit stream a concatenation of
whole valid frames, and the configuration legal. R7: every step keeps every number of the block one of the configured type. -/
def Obligations.EveryStepKeepsTheInvariant : Prop :=
  (∀ s t : State, BlockInv s = true → step s = .next t → BlockInv t = true) ∧
  (∀ s t : State, typed s = true → step s = .next t → typed t = true)

/-- R6, R43: no step changes the configuration, and a block stepped under a configuration goes on under that one: the
configuration is an argument of the run (held in the state because the host's step takes the state alone, log 8). -/
def Obligations.ConfigurationNeverChanges : Prop :=
  (∀ s t : State, step s = .next t → t.cfg = s.cfg) ∧
  (∀ (c : Cfg) (s t : State), stepUnder c s = .next t → t.cfg = c ∧ step t = stepUnder c t)

/-- R38: `tx` only grows, by five bytes for every present sensor of a tick and by nothing else (that it starts empty and
that `HWRESET` removes nothing are the spec's own decision D35, and one frame for every present sensor at every tick is its
decision D30, log 19). -/
def Obligations.TransmitStreamGrowsOnlyByTicks : Prop :=
  State.reset.tx = [] ∧
  ∀ s t : State, step s = .next t →
    ∃ u : List Byte, t.tx = s.tx ++ u ∧
      (s.events.head? = some .tick →
        u.length = 5 * ([Kind.temp, .ph, .tds].filter fun k => (s.cfg.sensor.get k).present).length) ∧
      (s.events.head? ≠ some .tick → u = [])

/-- R38: the block never reads `tx`: with other bytes sent before, a step does the same and sends the same. -/
def Obligations.TransmitStreamIsNeverRead : Prop :=
  ∀ (s t : State) (u : List Byte), step s = .next t →
    step { s with tx := u ++ s.tx } = .next { t with tx := u ++ t.tx }

/-- R28, R159: the calibration is changed only by a command frame that arrives whole and valid, by `SETTEMP` (the ambient
temperature alone) and by `HWRESET`: no tick, no wait, no dropped or partial frame changes it. -/
def Obligations.OnlyCommandsChangeTheCalibration : Prop :=
  ∀ s t : State, step s = .next t → calibration t ≠ calibration s →
    s.events.head? = some .hwReset ∨
    (∃ x, s.events.head? = some (.setTemp x) ∧ calibration t = { calibration s with tdsTemp := x }) ∨
    (∃ b i, s.events.head? = some (.rxByte b) ∧ s.rxCnt = 5 ∧
      decodeCommand s.cfg.codes (s.rxBuf.set 5 b).toList = .instr i)

/-- R20, R40: no step changes a register of an absent sensor, and none samples it (that a frame for an absent sensor has no
effect is the spec's own decision D10, log 17; that an absent sensor's fields stand in the state and are never written is
the model's choice, log 11). -/
def Obligations.AbsentSensorIsNeverTouched : Prop :=
  ∀ (s t : State) (k : Kind), step s = .next t → (s.cfg.sensor.get k).present = false →
    t.sensor.get k = s.sensor.get k ∧ t.rawAns.get k = s.rawAns.get k ∧
    (∃ l, t.rawLog = s.rawLog ++ l ∧ k ∉ l) ∧
    (k = .ph → t.phMode = s.phMode ∧ t.phZeroOffset = s.phZeroOffset ∧ t.phLow = s.phLow ∧ t.phMid = s.phMid ∧
      t.phHigh = s.phHigh) ∧
    (k = .tds → t.tdsProbe = s.tdsProbe ∧ t.tdsTemp = s.tdsTemp)
end

