-- ==== Sys2Proof/Laws/Codec.lean ====
section
/-! SUPPORT. The codec's functions, one spec lemma each. -/

namespace Sys2Proof

/-- The two wire bytes of a 16-bit field put together again give the field (rules R52, R76). -/
@[simp] theorem half_hi_lo (v : Half) : half (hiByte v) (loByte v) = v := by
  apply BitVec.eq_of_getLsbD_eq
  intro i hi
  simp only [half, hiByte, loByte, BitVec.getLsbD_append, BitVec.getLsbD_extractLsb']
  by_cases h : i < 8
  · simp [h]
  · have h' : i - 8 < 8 := by omega
    have h'' : 8 + (i - 8) = i := by omega
    simp [h, h', h'']

@[simp] theorem hiByte_half (a b : Byte) : hiByte (half a b) = a := by
  apply BitVec.eq_of_getLsbD_eq
  intro i hi
  simp only [half, hiByte, BitVec.getLsbD_append, BitVec.getLsbD_extractLsb']
  have h : ¬ 8 + i < 8 := by omega
  simp [h, hi]

@[simp] theorem loByte_half (a b : Byte) : loByte (half a b) = b := by
  apply BitVec.eq_of_getLsbD_eq
  intro i hi
  simp only [half, loByte, BitVec.getLsbD_append, BitVec.getLsbD_extractLsb']
  simp [hi]

/-- The field's number is `256 * hi + lo` (rule R76). -/
theorem half_toNat (a b : Byte) : (half a b).toNat = 256 * a.toNat + b.toNat := by
  have hb := b.isLt
  simp only [half, BitVec.toNat_append]
  rw [← Nat.shiftLeft_add_eq_or_of_lt hb, Nat.shiftLeft_eq]
  omega

@[simp] theorem enc6_length (pfx k a b c : Byte) : (enc6 pfx k a b c).length = 6 := rfl

@[simp] theorem enc5_length (pfx k a b : Byte) : (enc5 pfx k a b).length = 5 := rfl

/-- An encoded command frame is valid (rule R80). -/
@[simp] theorem validFrame_enc6 (pfx k a b c : Byte) : validFrame pfx 6 (enc6 pfx k a b c) = true := by
  simp [validFrame, enc6]

/-- An encoded telemetry frame is valid (rules R80, R94). -/
@[simp] theorem validFrame_enc5 (pfx k a b : Byte) : validFrame pfx 5 (enc5 pfx k a b) = true := by
  simp [validFrame, enc5]

/-- A command frame the decoder answers has the length, the prefix and the checksum, and the fields are its bytes. -/
theorem dec6_eq_frame {pfx : Byte} {bs : List Byte} {f : Frame6} (h : dec6 pfx bs = .frame f) :
    bs = enc6 pfx f.kind f.command f.argHi f.argLo := by
  unfold dec6 at h
  split at h
  · split at h
    · cases h
    · split at h
      · cases h
      · cases h
        simp_all [enc6]
  · cases h

/-- A telemetry frame the decoder answers has the length, the prefix and the checksum, and the fields are its bytes. -/
theorem dec5_eq_frame {pfx : Byte} {bs : List Byte} {f : Frame5} (h : dec5 pfx bs = .frame f) :
    bs = enc5 pfx f.kind f.valueHi f.valueLo := by
  unfold dec5 at h
  split at h
  · split at h
    · cases h
    · split at h
      · cases h
      · cases h
        simp_all [enc5]
  · cases h

/-- A kind byte selects only a kind with that code. -/
theorem kindOf_some {c : Codes} {b : Byte} {k : Kind} (h : c.kindOf b = some k) : c.kindCode k = b := by
  unfold Codes.kindOf at h
  split at h
  · cases h
    simp_all [Codes.kindCode, PerKind.get]
  · split at h
    · cases h
      simp_all [Codes.kindCode, PerKind.get]
    · split at h
      · cases h
        simp_all [Codes.kindCode, PerKind.get]
      · cases h

/-- A command byte selects only a command with that code. -/
theorem commandOf_some {c : Codes} {b : Byte} {m : Command} (h : c.commandOf b = some m) : c.cmdCode m = b := by
  unfold Codes.commandOf at h
  split at h
  · cases h
    simp_all [Codes.cmdCode]
  · split at h
    · cases h
      simp_all [Codes.cmdCode]
    · split at h
      · cases h
        simp_all [Codes.cmdCode]
      · split at h
        · cases h
          simp_all [Codes.cmdCode]
        · split at h
          · cases h
            simp_all [Codes.cmdCode]
          · split at h
            · cases h
              simp_all [Codes.cmdCode]
            · cases h

/-- With distinct kind codes a kind's code selects it. -/
theorem kindOf_kindCode {c : Codes} (h : c.kindsDistinct = true) (k : Kind) : c.kindOf (c.kindCode k) = some k := by
  simp [Codes.kindsDistinct] at h
  obtain ⟨⟨h1, h2⟩, h3⟩ := h
  cases k <;> simp [Codes.kindOf, Codes.kindCode, PerKind.get, Ne.symm h1, Ne.symm h2, Ne.symm h3]

/-- With distinct command codes a command's code selects it. -/
theorem commandOf_cmdCode {c : Codes} (h : c.commandsDistinct = true) (m : Command) :
    c.commandOf (c.cmdCode m) = some m := by
  simp [Codes.commandsDistinct, Codes.commandBytes, allDistinct] at h
  obtain ⟨⟨a1, a2, a3, a4, a5⟩, ⟨b1, b2, b3, b4⟩, ⟨c1, c2, c3⟩, ⟨d1, d2⟩, e1⟩ := h
  cases m <;>
    simp [Codes.commandOf, Codes.cmdCode, Ne.symm a1, Ne.symm a2, Ne.symm a3, Ne.symm a4, Ne.symm a5, Ne.symm b1,
      Ne.symm b2, Ne.symm b3, Ne.symm b4, Ne.symm c1, Ne.symm c2, Ne.symm c3, Ne.symm d1, Ne.symm d2, Ne.symm e1]

/-- The encoder of a (kind, command) pair's instruction. -/
@[simp] theorem encode_ofCommand (c : Codes) (k : Kind) (m : Command) (a : Half) :
    encode c (Instr.ofCommand k m a) = encodeCommand c k m a := by
  cases k <;> cases m <;> rfl

/-- The encoder of a kind's telemetry instruction. -/
@[simp] theorem encode_ofTelemetry (c : Codes) (k : Kind) (v : Half) :
    encode c (Instr.ofTelemetry k v) = encodeTelemetry c k v := by
  cases k <;> rfl

end Sys2Proof
end

