-- ==== Sys2Proof/Laws/State.lean ====
section
/-! SUPPORT. What each register update leaves in each field of the state: one lemma a field and update. -/

namespace Sys2Proof

namespace PerKind

@[simp] theorem get_set_same {α : Type} (p : PerKind α) (k : Kind) (x : α) : (p.set k x).get k = x := by
  cases k <;> rfl

@[simp] theorem get_set_other {α : Type} (p : PerKind α) {j k : Kind} (x : α) (h : j ≠ k) :
    (p.set k x).get j = p.get j := by
  cases j <;> cases k <;> first | rfl | exact absurd rfl h

@[simp] theorem set_get_same {α : Type} (p : PerKind α) (k : Kind) : p.set k (p.get k) = p := by
  cases k <;> rfl

@[simp] theorem set_set_same {α : Type} (p : PerKind α) (k : Kind) (x y : α) : (p.set k x).set k y = p.set k y := by
  cases k <;> rfl

end PerKind

namespace Machine.State

variable (s : State)

@[simp] theorem setValue_cfg (k : Kind) (v : Number) : (s.setValue k v).cfg = s.cfg := rfl
@[simp] theorem setValue_rxBuf (k : Kind) (v : Number) : (s.setValue k v).rxBuf = s.rxBuf := rfl
@[simp] theorem setValue_rxCnt (k : Kind) (v : Number) : (s.setValue k v).rxCnt = s.rxCnt := rfl
@[simp] theorem setValue_tx (k : Kind) (v : Number) : (s.setValue k v).tx = s.tx := rfl
@[simp] theorem setValue_sensor (k : Kind) (v : Number) :
    (s.setValue k v).sensor = s.sensor.set k { s.sensor.get k with value := v } := rfl
@[simp] theorem setValue_phMode (k : Kind) (v : Number) : (s.setValue k v).phMode = s.phMode := rfl
@[simp] theorem setValue_phZeroOffset (k : Kind) (v : Number) :
    (s.setValue k v).phZeroOffset = s.phZeroOffset := rfl
@[simp] theorem setValue_phLow (k : Kind) (v : Number) : (s.setValue k v).phLow = s.phLow := rfl
@[simp] theorem setValue_phMid (k : Kind) (v : Number) : (s.setValue k v).phMid = s.phMid := rfl
@[simp] theorem setValue_phHigh (k : Kind) (v : Number) : (s.setValue k v).phHigh = s.phHigh := rfl
@[simp] theorem setValue_tdsProbe (k : Kind) (v : Number) : (s.setValue k v).tdsProbe = s.tdsProbe := rfl
@[simp] theorem setValue_tdsTemp (k : Kind) (v : Number) : (s.setValue k v).tdsTemp = s.tdsTemp := rfl
@[simp] theorem setValue_events (k : Kind) (v : Number) : (s.setValue k v).events = s.events := rfl
@[simp] theorem setValue_rawAns (k : Kind) (v : Number) : (s.setValue k v).rawAns = s.rawAns := rfl
@[simp] theorem setValue_rawLog (k : Kind) (v : Number) : (s.setValue k v).rawLog = s.rawLog := rfl
@[simp] theorem setValue_free (k : Kind) (v : Number) : (s.setValue k v).free = s.free := rfl

@[simp] theorem setWindow_cfg (k : Kind) (b : List Number) (n : Nat) : (s.setWindow k b n).cfg = s.cfg := rfl
@[simp] theorem setWindow_rxBuf (k : Kind) (b : List Number) (n : Nat) : (s.setWindow k b n).rxBuf = s.rxBuf := rfl
@[simp] theorem setWindow_rxCnt (k : Kind) (b : List Number) (n : Nat) : (s.setWindow k b n).rxCnt = s.rxCnt := rfl
@[simp] theorem setWindow_tx (k : Kind) (b : List Number) (n : Nat) : (s.setWindow k b n).tx = s.tx := rfl
@[simp] theorem setWindow_sensor (k : Kind) (b : List Number) (n : Nat) :
    (s.setWindow k b n).sensor = s.sensor.set k { s.sensor.get k with buf := b, cur := n } := rfl
@[simp] theorem setWindow_phMode (k : Kind) (b : List Number) (n : Nat) :
    (s.setWindow k b n).phMode = s.phMode := rfl
@[simp] theorem setWindow_phZeroOffset (k : Kind) (b : List Number) (n : Nat) :
    (s.setWindow k b n).phZeroOffset = s.phZeroOffset := rfl
@[simp] theorem setWindow_phLow (k : Kind) (b : List Number) (n : Nat) : (s.setWindow k b n).phLow = s.phLow := rfl
@[simp] theorem setWindow_phMid (k : Kind) (b : List Number) (n : Nat) : (s.setWindow k b n).phMid = s.phMid := rfl
@[simp] theorem setWindow_phHigh (k : Kind) (b : List Number) (n : Nat) :
    (s.setWindow k b n).phHigh = s.phHigh := rfl
@[simp] theorem setWindow_tdsProbe (k : Kind) (b : List Number) (n : Nat) :
    (s.setWindow k b n).tdsProbe = s.tdsProbe := rfl
@[simp] theorem setWindow_tdsTemp (k : Kind) (b : List Number) (n : Nat) :
    (s.setWindow k b n).tdsTemp = s.tdsTemp := rfl
@[simp] theorem setWindow_events (k : Kind) (b : List Number) (n : Nat) :
    (s.setWindow k b n).events = s.events := rfl
@[simp] theorem setWindow_rawAns (k : Kind) (b : List Number) (n : Nat) :
    (s.setWindow k b n).rawAns = s.rawAns := rfl
@[simp] theorem setWindow_rawLog (k : Kind) (b : List Number) (n : Nat) :
    (s.setWindow k b n).rawLog = s.rawLog := rfl
@[simp] theorem setWindow_free (k : Kind) (b : List Number) (n : Nat) : (s.setWindow k b n).free = s.free := rfl

@[simp] theorem setPhMode_cfg (m : PhMode) : (s.setPhMode m).cfg = s.cfg := rfl
@[simp] theorem setPhMode_rxBuf (m : PhMode) : (s.setPhMode m).rxBuf = s.rxBuf := rfl
@[simp] theorem setPhMode_rxCnt (m : PhMode) : (s.setPhMode m).rxCnt = s.rxCnt := rfl
@[simp] theorem setPhMode_tx (m : PhMode) : (s.setPhMode m).tx = s.tx := rfl
@[simp] theorem setPhMode_sensor (m : PhMode) : (s.setPhMode m).sensor = s.sensor := rfl
@[simp] theorem setPhMode_phMode (m : PhMode) : (s.setPhMode m).phMode = m := rfl
@[simp] theorem setPhMode_phZeroOffset (m : PhMode) : (s.setPhMode m).phZeroOffset = s.phZeroOffset := rfl
@[simp] theorem setPhMode_phLow (m : PhMode) : (s.setPhMode m).phLow = s.phLow := rfl
@[simp] theorem setPhMode_phMid (m : PhMode) : (s.setPhMode m).phMid = s.phMid := rfl
@[simp] theorem setPhMode_phHigh (m : PhMode) : (s.setPhMode m).phHigh = s.phHigh := rfl
@[simp] theorem setPhMode_tdsProbe (m : PhMode) : (s.setPhMode m).tdsProbe = s.tdsProbe := rfl
@[simp] theorem setPhMode_tdsTemp (m : PhMode) : (s.setPhMode m).tdsTemp = s.tdsTemp := rfl
@[simp] theorem setPhMode_events (m : PhMode) : (s.setPhMode m).events = s.events := rfl
@[simp] theorem setPhMode_rawAns (m : PhMode) : (s.setPhMode m).rawAns = s.rawAns := rfl
@[simp] theorem setPhMode_rawLog (m : PhMode) : (s.setPhMode m).rawLog = s.rawLog := rfl
@[simp] theorem setPhMode_free (m : PhMode) : (s.setPhMode m).free = s.free := rfl

@[simp] theorem setPhZeroOffset_cfg (v : Number) : (s.setPhZeroOffset v).cfg = s.cfg := rfl
@[simp] theorem setPhZeroOffset_rxBuf (v : Number) : (s.setPhZeroOffset v).rxBuf = s.rxBuf := rfl
@[simp] theorem setPhZeroOffset_rxCnt (v : Number) : (s.setPhZeroOffset v).rxCnt = s.rxCnt := rfl
@[simp] theorem setPhZeroOffset_tx (v : Number) : (s.setPhZeroOffset v).tx = s.tx := rfl
@[simp] theorem setPhZeroOffset_sensor (v : Number) : (s.setPhZeroOffset v).sensor = s.sensor := rfl
@[simp] theorem setPhZeroOffset_phMode (v : Number) : (s.setPhZeroOffset v).phMode = s.phMode := rfl
@[simp] theorem setPhZeroOffset_phZeroOffset (v : Number) : (s.setPhZeroOffset v).phZeroOffset = v := rfl
@[simp] theorem setPhZeroOffset_phLow (v : Number) : (s.setPhZeroOffset v).phLow = s.phLow := rfl
@[simp] theorem setPhZeroOffset_phMid (v : Number) : (s.setPhZeroOffset v).phMid = s.phMid := rfl
@[simp] theorem setPhZeroOffset_phHigh (v : Number) : (s.setPhZeroOffset v).phHigh = s.phHigh := rfl
@[simp] theorem setPhZeroOffset_tdsProbe (v : Number) : (s.setPhZeroOffset v).tdsProbe = s.tdsProbe := rfl
@[simp] theorem setPhZeroOffset_tdsTemp (v : Number) : (s.setPhZeroOffset v).tdsTemp = s.tdsTemp := rfl
@[simp] theorem setPhZeroOffset_events (v : Number) : (s.setPhZeroOffset v).events = s.events := rfl
@[simp] theorem setPhZeroOffset_rawAns (v : Number) : (s.setPhZeroOffset v).rawAns = s.rawAns := rfl
@[simp] theorem setPhZeroOffset_rawLog (v : Number) : (s.setPhZeroOffset v).rawLog = s.rawLog := rfl
@[simp] theorem setPhZeroOffset_free (v : Number) : (s.setPhZeroOffset v).free = s.free := rfl

@[simp] theorem setPhLow_cfg (v : Number) : (s.setPhLow v).cfg = s.cfg := rfl
@[simp] theorem setPhLow_rxBuf (v : Number) : (s.setPhLow v).rxBuf = s.rxBuf := rfl
@[simp] theorem setPhLow_rxCnt (v : Number) : (s.setPhLow v).rxCnt = s.rxCnt := rfl
@[simp] theorem setPhLow_tx (v : Number) : (s.setPhLow v).tx = s.tx := rfl
@[simp] theorem setPhLow_sensor (v : Number) : (s.setPhLow v).sensor = s.sensor := rfl
@[simp] theorem setPhLow_phMode (v : Number) : (s.setPhLow v).phMode = s.phMode := rfl
@[simp] theorem setPhLow_phZeroOffset (v : Number) : (s.setPhLow v).phZeroOffset = s.phZeroOffset := rfl
@[simp] theorem setPhLow_phLow (v : Number) : (s.setPhLow v).phLow = v := rfl
@[simp] theorem setPhLow_phMid (v : Number) : (s.setPhLow v).phMid = s.phMid := rfl
@[simp] theorem setPhLow_phHigh (v : Number) : (s.setPhLow v).phHigh = s.phHigh := rfl
@[simp] theorem setPhLow_tdsProbe (v : Number) : (s.setPhLow v).tdsProbe = s.tdsProbe := rfl
@[simp] theorem setPhLow_tdsTemp (v : Number) : (s.setPhLow v).tdsTemp = s.tdsTemp := rfl
@[simp] theorem setPhLow_events (v : Number) : (s.setPhLow v).events = s.events := rfl
@[simp] theorem setPhLow_rawAns (v : Number) : (s.setPhLow v).rawAns = s.rawAns := rfl
@[simp] theorem setPhLow_rawLog (v : Number) : (s.setPhLow v).rawLog = s.rawLog := rfl
@[simp] theorem setPhLow_free (v : Number) : (s.setPhLow v).free = s.free := rfl

@[simp] theorem setPhMid_cfg (v : Number) : (s.setPhMid v).cfg = s.cfg := rfl
@[simp] theorem setPhMid_rxBuf (v : Number) : (s.setPhMid v).rxBuf = s.rxBuf := rfl
@[simp] theorem setPhMid_rxCnt (v : Number) : (s.setPhMid v).rxCnt = s.rxCnt := rfl
@[simp] theorem setPhMid_tx (v : Number) : (s.setPhMid v).tx = s.tx := rfl
@[simp] theorem setPhMid_sensor (v : Number) : (s.setPhMid v).sensor = s.sensor := rfl
@[simp] theorem setPhMid_phMode (v : Number) : (s.setPhMid v).phMode = s.phMode := rfl
@[simp] theorem setPhMid_phZeroOffset (v : Number) : (s.setPhMid v).phZeroOffset = s.phZeroOffset := rfl
@[simp] theorem setPhMid_phLow (v : Number) : (s.setPhMid v).phLow = s.phLow := rfl
@[simp] theorem setPhMid_phMid (v : Number) : (s.setPhMid v).phMid = v := rfl
@[simp] theorem setPhMid_phHigh (v : Number) : (s.setPhMid v).phHigh = s.phHigh := rfl
@[simp] theorem setPhMid_tdsProbe (v : Number) : (s.setPhMid v).tdsProbe = s.tdsProbe := rfl
@[simp] theorem setPhMid_tdsTemp (v : Number) : (s.setPhMid v).tdsTemp = s.tdsTemp := rfl
@[simp] theorem setPhMid_events (v : Number) : (s.setPhMid v).events = s.events := rfl
@[simp] theorem setPhMid_rawAns (v : Number) : (s.setPhMid v).rawAns = s.rawAns := rfl
@[simp] theorem setPhMid_rawLog (v : Number) : (s.setPhMid v).rawLog = s.rawLog := rfl
@[simp] theorem setPhMid_free (v : Number) : (s.setPhMid v).free = s.free := rfl

@[simp] theorem setPhHigh_cfg (v : Number) : (s.setPhHigh v).cfg = s.cfg := rfl
@[simp] theorem setPhHigh_rxBuf (v : Number) : (s.setPhHigh v).rxBuf = s.rxBuf := rfl
@[simp] theorem setPhHigh_rxCnt (v : Number) : (s.setPhHigh v).rxCnt = s.rxCnt := rfl
@[simp] theorem setPhHigh_tx (v : Number) : (s.setPhHigh v).tx = s.tx := rfl
@[simp] theorem setPhHigh_sensor (v : Number) : (s.setPhHigh v).sensor = s.sensor := rfl
@[simp] theorem setPhHigh_phMode (v : Number) : (s.setPhHigh v).phMode = s.phMode := rfl
@[simp] theorem setPhHigh_phZeroOffset (v : Number) : (s.setPhHigh v).phZeroOffset = s.phZeroOffset := rfl
@[simp] theorem setPhHigh_phLow (v : Number) : (s.setPhHigh v).phLow = s.phLow := rfl
@[simp] theorem setPhHigh_phMid (v : Number) : (s.setPhHigh v).phMid = s.phMid := rfl
@[simp] theorem setPhHigh_phHigh (v : Number) : (s.setPhHigh v).phHigh = v := rfl
@[simp] theorem setPhHigh_tdsProbe (v : Number) : (s.setPhHigh v).tdsProbe = s.tdsProbe := rfl
@[simp] theorem setPhHigh_tdsTemp (v : Number) : (s.setPhHigh v).tdsTemp = s.tdsTemp := rfl
@[simp] theorem setPhHigh_events (v : Number) : (s.setPhHigh v).events = s.events := rfl
@[simp] theorem setPhHigh_rawAns (v : Number) : (s.setPhHigh v).rawAns = s.rawAns := rfl
@[simp] theorem setPhHigh_rawLog (v : Number) : (s.setPhHigh v).rawLog = s.rawLog := rfl
@[simp] theorem setPhHigh_free (v : Number) : (s.setPhHigh v).free = s.free := rfl

@[simp] theorem setTdsProbe_cfg (v : Number) : (s.setTdsProbe v).cfg = s.cfg := rfl
@[simp] theorem setTdsProbe_rxBuf (v : Number) : (s.setTdsProbe v).rxBuf = s.rxBuf := rfl
@[simp] theorem setTdsProbe_rxCnt (v : Number) : (s.setTdsProbe v).rxCnt = s.rxCnt := rfl
@[simp] theorem setTdsProbe_tx (v : Number) : (s.setTdsProbe v).tx = s.tx := rfl
@[simp] theorem setTdsProbe_sensor (v : Number) : (s.setTdsProbe v).sensor = s.sensor := rfl
@[simp] theorem setTdsProbe_phMode (v : Number) : (s.setTdsProbe v).phMode = s.phMode := rfl
@[simp] theorem setTdsProbe_phZeroOffset (v : Number) : (s.setTdsProbe v).phZeroOffset = s.phZeroOffset := rfl
@[simp] theorem setTdsProbe_phLow (v : Number) : (s.setTdsProbe v).phLow = s.phLow := rfl
@[simp] theorem setTdsProbe_phMid (v : Number) : (s.setTdsProbe v).phMid = s.phMid := rfl
@[simp] theorem setTdsProbe_phHigh (v : Number) : (s.setTdsProbe v).phHigh = s.phHigh := rfl
@[simp] theorem setTdsProbe_tdsProbe (v : Number) : (s.setTdsProbe v).tdsProbe = v := rfl
@[simp] theorem setTdsProbe_tdsTemp (v : Number) : (s.setTdsProbe v).tdsTemp = s.tdsTemp := rfl
@[simp] theorem setTdsProbe_events (v : Number) : (s.setTdsProbe v).events = s.events := rfl
@[simp] theorem setTdsProbe_rawAns (v : Number) : (s.setTdsProbe v).rawAns = s.rawAns := rfl
@[simp] theorem setTdsProbe_rawLog (v : Number) : (s.setTdsProbe v).rawLog = s.rawLog := rfl
@[simp] theorem setTdsProbe_free (v : Number) : (s.setTdsProbe v).free = s.free := rfl

@[simp] theorem setTdsTemp_cfg (v : Number) : (s.setTdsTemp v).cfg = s.cfg := rfl
@[simp] theorem setTdsTemp_rxBuf (v : Number) : (s.setTdsTemp v).rxBuf = s.rxBuf := rfl
@[simp] theorem setTdsTemp_rxCnt (v : Number) : (s.setTdsTemp v).rxCnt = s.rxCnt := rfl
@[simp] theorem setTdsTemp_tx (v : Number) : (s.setTdsTemp v).tx = s.tx := rfl
@[simp] theorem setTdsTemp_sensor (v : Number) : (s.setTdsTemp v).sensor = s.sensor := rfl
@[simp] theorem setTdsTemp_phMode (v : Number) : (s.setTdsTemp v).phMode = s.phMode := rfl
@[simp] theorem setTdsTemp_phZeroOffset (v : Number) : (s.setTdsTemp v).phZeroOffset = s.phZeroOffset := rfl
@[simp] theorem setTdsTemp_phLow (v : Number) : (s.setTdsTemp v).phLow = s.phLow := rfl
@[simp] theorem setTdsTemp_phMid (v : Number) : (s.setTdsTemp v).phMid = s.phMid := rfl
@[simp] theorem setTdsTemp_phHigh (v : Number) : (s.setTdsTemp v).phHigh = s.phHigh := rfl
@[simp] theorem setTdsTemp_tdsProbe (v : Number) : (s.setTdsTemp v).tdsProbe = s.tdsProbe := rfl
@[simp] theorem setTdsTemp_tdsTemp (v : Number) : (s.setTdsTemp v).tdsTemp = v := rfl
@[simp] theorem setTdsTemp_events (v : Number) : (s.setTdsTemp v).events = s.events := rfl
@[simp] theorem setTdsTemp_rawAns (v : Number) : (s.setTdsTemp v).rawAns = s.rawAns := rfl
@[simp] theorem setTdsTemp_rawLog (v : Number) : (s.setTdsTemp v).rawLog = s.rawLog := rfl
@[simp] theorem setTdsTemp_free (v : Number) : (s.setTdsTemp v).free = s.free := rfl

@[simp] theorem storeRx_cfg (b : Byte) : (s.storeRx b).cfg = s.cfg := rfl
@[simp] theorem storeRx_rxBuf (b : Byte) : (s.storeRx b).rxBuf = s.rxBuf.set s.rxCnt.val b s.rxCnt.isLt := rfl
@[simp] theorem storeRx_rxCnt (b : Byte) : (s.storeRx b).rxCnt = s.rxCnt := rfl
@[simp] theorem storeRx_tx (b : Byte) : (s.storeRx b).tx = s.tx := rfl
@[simp] theorem storeRx_sensor (b : Byte) : (s.storeRx b).sensor = s.sensor := rfl
@[simp] theorem storeRx_phMode (b : Byte) : (s.storeRx b).phMode = s.phMode := rfl
@[simp] theorem storeRx_phZeroOffset (b : Byte) : (s.storeRx b).phZeroOffset = s.phZeroOffset := rfl
@[simp] theorem storeRx_phLow (b : Byte) : (s.storeRx b).phLow = s.phLow := rfl
@[simp] theorem storeRx_phMid (b : Byte) : (s.storeRx b).phMid = s.phMid := rfl
@[simp] theorem storeRx_phHigh (b : Byte) : (s.storeRx b).phHigh = s.phHigh := rfl
@[simp] theorem storeRx_tdsProbe (b : Byte) : (s.storeRx b).tdsProbe = s.tdsProbe := rfl
@[simp] theorem storeRx_tdsTemp (b : Byte) : (s.storeRx b).tdsTemp = s.tdsTemp := rfl
@[simp] theorem storeRx_events (b : Byte) : (s.storeRx b).events = s.events := rfl
@[simp] theorem storeRx_rawAns (b : Byte) : (s.storeRx b).rawAns = s.rawAns := rfl
@[simp] theorem storeRx_rawLog (b : Byte) : (s.storeRx b).rawLog = s.rawLog := rfl
@[simp] theorem storeRx_free (b : Byte) : (s.storeRx b).free = s.free := rfl

@[simp] theorem setRxCnt_cfg (n : Fin 6) : (s.setRxCnt n).cfg = s.cfg := rfl
@[simp] theorem setRxCnt_rxBuf (n : Fin 6) : (s.setRxCnt n).rxBuf = s.rxBuf := rfl
@[simp] theorem setRxCnt_rxCnt (n : Fin 6) : (s.setRxCnt n).rxCnt = n := rfl
@[simp] theorem setRxCnt_tx (n : Fin 6) : (s.setRxCnt n).tx = s.tx := rfl
@[simp] theorem setRxCnt_sensor (n : Fin 6) : (s.setRxCnt n).sensor = s.sensor := rfl
@[simp] theorem setRxCnt_phMode (n : Fin 6) : (s.setRxCnt n).phMode = s.phMode := rfl
@[simp] theorem setRxCnt_phZeroOffset (n : Fin 6) : (s.setRxCnt n).phZeroOffset = s.phZeroOffset := rfl
@[simp] theorem setRxCnt_phLow (n : Fin 6) : (s.setRxCnt n).phLow = s.phLow := rfl
@[simp] theorem setRxCnt_phMid (n : Fin 6) : (s.setRxCnt n).phMid = s.phMid := rfl
@[simp] theorem setRxCnt_phHigh (n : Fin 6) : (s.setRxCnt n).phHigh = s.phHigh := rfl
@[simp] theorem setRxCnt_tdsProbe (n : Fin 6) : (s.setRxCnt n).tdsProbe = s.tdsProbe := rfl
@[simp] theorem setRxCnt_tdsTemp (n : Fin 6) : (s.setRxCnt n).tdsTemp = s.tdsTemp := rfl
@[simp] theorem setRxCnt_events (n : Fin 6) : (s.setRxCnt n).events = s.events := rfl
@[simp] theorem setRxCnt_rawAns (n : Fin 6) : (s.setRxCnt n).rawAns = s.rawAns := rfl
@[simp] theorem setRxCnt_rawLog (n : Fin 6) : (s.setRxCnt n).rawLog = s.rawLog := rfl
@[simp] theorem setRxCnt_free (n : Fin 6) : (s.setRxCnt n).free = s.free := rfl

@[simp] theorem emit_cfg (b : Byte) : (s.emit b).cfg = s.cfg := rfl
@[simp] theorem emit_rxBuf (b : Byte) : (s.emit b).rxBuf = s.rxBuf := rfl
@[simp] theorem emit_rxCnt (b : Byte) : (s.emit b).rxCnt = s.rxCnt := rfl
@[simp] theorem emit_tx (b : Byte) : (s.emit b).tx = s.tx ++ [b] := rfl
@[simp] theorem emit_sensor (b : Byte) : (s.emit b).sensor = s.sensor := rfl
@[simp] theorem emit_phMode (b : Byte) : (s.emit b).phMode = s.phMode := rfl
@[simp] theorem emit_phZeroOffset (b : Byte) : (s.emit b).phZeroOffset = s.phZeroOffset := rfl
@[simp] theorem emit_phLow (b : Byte) : (s.emit b).phLow = s.phLow := rfl
@[simp] theorem emit_phMid (b : Byte) : (s.emit b).phMid = s.phMid := rfl
@[simp] theorem emit_phHigh (b : Byte) : (s.emit b).phHigh = s.phHigh := rfl
@[simp] theorem emit_tdsProbe (b : Byte) : (s.emit b).tdsProbe = s.tdsProbe := rfl
@[simp] theorem emit_tdsTemp (b : Byte) : (s.emit b).tdsTemp = s.tdsTemp := rfl
@[simp] theorem emit_events (b : Byte) : (s.emit b).events = s.events := rfl
@[simp] theorem emit_rawAns (b : Byte) : (s.emit b).rawAns = s.rawAns := rfl
@[simp] theorem emit_rawLog (b : Byte) : (s.emit b).rawLog = s.rawLog := rfl
@[simp] theorem emit_free (b : Byte) : (s.emit b).free = s.free := rfl

@[simp] theorem drawFree_cfg : s.drawFree.cfg = s.cfg := rfl
@[simp] theorem drawFree_rxBuf : s.drawFree.rxBuf = s.rxBuf := rfl
@[simp] theorem drawFree_rxCnt : s.drawFree.rxCnt = s.rxCnt := rfl
@[simp] theorem drawFree_tx : s.drawFree.tx = s.tx := rfl
@[simp] theorem drawFree_sensor : s.drawFree.sensor = s.sensor := rfl
@[simp] theorem drawFree_phMode : s.drawFree.phMode = s.phMode := rfl
@[simp] theorem drawFree_phZeroOffset : s.drawFree.phZeroOffset = s.phZeroOffset := rfl
@[simp] theorem drawFree_phLow : s.drawFree.phLow = s.phLow := rfl
@[simp] theorem drawFree_phMid : s.drawFree.phMid = s.phMid := rfl
@[simp] theorem drawFree_phHigh : s.drawFree.phHigh = s.phHigh := rfl
@[simp] theorem drawFree_tdsProbe : s.drawFree.tdsProbe = s.tdsProbe := rfl
@[simp] theorem drawFree_tdsTemp : s.drawFree.tdsTemp = s.tdsTemp := rfl
@[simp] theorem drawFree_events : s.drawFree.events = s.events := rfl
@[simp] theorem drawFree_rawAns : s.drawFree.rawAns = s.rawAns := rfl
@[simp] theorem drawFree_rawLog : s.drawFree.rawLog = s.rawLog := rfl
@[simp] theorem drawFree_free : s.drawFree.free = s.free + 1 := rfl

@[simp] theorem setEvents_cfg (es : List Event) : (s.setEvents es).cfg = s.cfg := rfl
@[simp] theorem setEvents_rxBuf (es : List Event) : (s.setEvents es).rxBuf = s.rxBuf := rfl
@[simp] theorem setEvents_rxCnt (es : List Event) : (s.setEvents es).rxCnt = s.rxCnt := rfl
@[simp] theorem setEvents_tx (es : List Event) : (s.setEvents es).tx = s.tx := rfl
@[simp] theorem setEvents_sensor (es : List Event) : (s.setEvents es).sensor = s.sensor := rfl
@[simp] theorem setEvents_phMode (es : List Event) : (s.setEvents es).phMode = s.phMode := rfl
@[simp] theorem setEvents_phZeroOffset (es : List Event) : (s.setEvents es).phZeroOffset = s.phZeroOffset := rfl
@[simp] theorem setEvents_phLow (es : List Event) : (s.setEvents es).phLow = s.phLow := rfl
@[simp] theorem setEvents_phMid (es : List Event) : (s.setEvents es).phMid = s.phMid := rfl
@[simp] theorem setEvents_phHigh (es : List Event) : (s.setEvents es).phHigh = s.phHigh := rfl
@[simp] theorem setEvents_tdsProbe (es : List Event) : (s.setEvents es).tdsProbe = s.tdsProbe := rfl
@[simp] theorem setEvents_tdsTemp (es : List Event) : (s.setEvents es).tdsTemp = s.tdsTemp := rfl
@[simp] theorem setEvents_events (es : List Event) : (s.setEvents es).events = es := rfl
@[simp] theorem setEvents_rawAns (es : List Event) : (s.setEvents es).rawAns = s.rawAns := rfl
@[simp] theorem setEvents_rawLog (es : List Event) : (s.setEvents es).rawLog = s.rawLog := rfl
@[simp] theorem setEvents_free (es : List Event) : (s.setEvents es).free = s.free := rfl

end Machine.State

end Sys2Proof
end

