-- ==== Sys2Proof/Laws/Ops.lean ====
section
/-! SUPPORT. What the shared operations over the state can do, each said once. -/

namespace Sys2Proof.Machine

open Sys2Proof

/-- An outcome sequence that answers a next state went through a next state. -/
theorem andThen_next {o : Outcome} {f : State → Outcome} {t : State} (h : andThen o f = .next t) :
    ∃ u, o = .next u ∧ f u = .next t := by
  cases o with
  | next u => exact ⟨u, rfl, h⟩
  | fault r => cases h
  | refused r => cases h

@[simp] theorem andThen_of_next (s : State) (f : State → Outcome) : andThen (.next s) f = f s := rfl

theorem onPresent_present {k : Kind} {f : State → State} {s : State} (h : s.present k = true) :
    onPresent k f s = f s := by
  simp [onPresent, h]

theorem onPresent_absent {k : Kind} {f : State → State} {s : State} (h : s.present k = false) :
    onPresent k f s = s := by
  simp [onPresent, h]

@[simp] theorem noEffect_eq (s : State) : noEffect s = s := rfl

@[simp] theorem dropFrame_eq (e : FrameError) (s : State) : dropFrame e s = s := rfl

@[simp] theorem onPresent_noEffect (k : Kind) (s : State) : onPresent k noEffect s = s := by
  simp [onPresent]

/-- Whatever `f` keeps, `onPresent k f` keeps. -/
theorem onPresent_keeps {α : Type} (g : State → α) {k : Kind} {f : State → State} (h : ∀ s, g (f s) = g s)
    (s : State) : g (onPresent k f s) = g s := by
  unfold onPresent
  split
  · exact h s
  · rfl

namespace State

/-- `emit` of a frame appends its bytes and does nothing else. -/
theorem emitFrame_eq (bs : List Byte) (s : State) : s.emitFrame bs = { s with tx := s.tx ++ bs } := by
  induction bs generalizing s with
  | nil => simp [emitFrame]
  | cons b bs ih => simp [emitFrame, ih, emit, List.append_assoc]

/-- One `RAW(s)` invocation with a scripted answer. -/
theorem afterRaw_scripted {k : Kind} {s : State} {v : Number} {rest : List Number} (h : s.rawAns.get k = v :: rest) :
    s.rawValue k = v ∧
      s.afterRaw k = { s with rawAns := s.rawAns.set k rest, rawLog := s.rawLog ++ [k] } := by
  simp [rawValue, afterRaw, h]

/-- One `RAW(s)` invocation with a free answer. -/
theorem afterRaw_free {k : Kind} {s : State} (h : s.rawAns.get k = []) :
    s.rawValue k = s.cfg.num.cast (Config.rawAnswer k s.free) ∧
      s.afterRaw k = { s with rawLog := s.rawLog ++ [k], free := s.free + 1 } := by
  simp [rawValue, afterRaw, h]

/-- A `RAW(s)` invocation changes only the environment's fields: the answers of `k`, the request trace, the draws. -/
theorem afterRaw_fields (k : Kind) (s : State) :
    ∃ ans n, s.afterRaw k =
      { s with rawAns := s.rawAns.set k ans, rawLog := s.rawLog ++ [k], free := n } := by
  cases h : s.rawAns.get k with
  | nil => exact ⟨s.rawAns.get k, s.free + 1, by simp [(afterRaw_free h).2]⟩
  | cons v rest => exact ⟨rest, s.free, by simp [(afterRaw_scripted h).2]⟩

/-- Whatever does not look at the environment's fields is unchanged by a `RAW(s)` invocation. -/
theorem afterRaw_keeps {α : Type} (g : State → α)
    (h : ∀ (s : State) (a : PerKind (List Number)) (l : List Kind) (n : Nat),
      g { s with rawAns := a, rawLog := l, free := n } = g s) (k : Kind) (s : State) :
    g (s.afterRaw k) = g s := by
  obtain ⟨ans, n, e⟩ := afterRaw_fields k s
  rw [e]
  exact h s _ _ _

@[simp] theorem afterRaw_cfg (k : Kind) (s : State) : (s.afterRaw k).cfg = s.cfg :=
  afterRaw_keeps (·.cfg) (fun _ _ _ _ => rfl) k s
@[simp] theorem afterRaw_rxBuf (k : Kind) (s : State) : (s.afterRaw k).rxBuf = s.rxBuf :=
  afterRaw_keeps (·.rxBuf) (fun _ _ _ _ => rfl) k s
@[simp] theorem afterRaw_rxCnt (k : Kind) (s : State) : (s.afterRaw k).rxCnt = s.rxCnt :=
  afterRaw_keeps (·.rxCnt) (fun _ _ _ _ => rfl) k s
@[simp] theorem afterRaw_tx (k : Kind) (s : State) : (s.afterRaw k).tx = s.tx :=
  afterRaw_keeps (·.tx) (fun _ _ _ _ => rfl) k s
@[simp] theorem afterRaw_sensor (k : Kind) (s : State) : (s.afterRaw k).sensor = s.sensor :=
  afterRaw_keeps (·.sensor) (fun _ _ _ _ => rfl) k s
@[simp] theorem afterRaw_phMode (k : Kind) (s : State) : (s.afterRaw k).phMode = s.phMode :=
  afterRaw_keeps (·.phMode) (fun _ _ _ _ => rfl) k s
@[simp] theorem afterRaw_phZeroOffset (k : Kind) (s : State) : (s.afterRaw k).phZeroOffset = s.phZeroOffset :=
  afterRaw_keeps (·.phZeroOffset) (fun _ _ _ _ => rfl) k s
@[simp] theorem afterRaw_phLow (k : Kind) (s : State) : (s.afterRaw k).phLow = s.phLow :=
  afterRaw_keeps (·.phLow) (fun _ _ _ _ => rfl) k s
@[simp] theorem afterRaw_phMid (k : Kind) (s : State) : (s.afterRaw k).phMid = s.phMid :=
  afterRaw_keeps (·.phMid) (fun _ _ _ _ => rfl) k s
@[simp] theorem afterRaw_phHigh (k : Kind) (s : State) : (s.afterRaw k).phHigh = s.phHigh :=
  afterRaw_keeps (·.phHigh) (fun _ _ _ _ => rfl) k s
@[simp] theorem afterRaw_tdsProbe (k : Kind) (s : State) : (s.afterRaw k).tdsProbe = s.tdsProbe :=
  afterRaw_keeps (·.tdsProbe) (fun _ _ _ _ => rfl) k s
@[simp] theorem afterRaw_tdsTemp (k : Kind) (s : State) : (s.afterRaw k).tdsTemp = s.tdsTemp :=
  afterRaw_keeps (·.tdsTemp) (fun _ _ _ _ => rfl) k s
@[simp] theorem afterRaw_events (k : Kind) (s : State) : (s.afterRaw k).events = s.events :=
  afterRaw_keeps (·.events) (fun _ _ _ _ => rfl) k s

@[simp] theorem afterRaw_rawLog (k : Kind) (s : State) : (s.afterRaw k).rawLog = s.rawLog ++ [k] := by
  obtain ⟨ans, n, e⟩ := afterRaw_fields k s
  rw [e]

/-- The answers scripted for the other kinds are not used up. -/
theorem afterRaw_rawAns_other {j k : Kind} (h : j ≠ k) (s : State) :
    (s.afterRaw k).rawAns.get j = s.rawAns.get j := by
  obtain ⟨ans, n, e⟩ := afterRaw_fields k s
  rw [e]
  exact PerKind.get_set_other _ _ h

end State

end Sys2Proof.Machine
end

