-- ==== Sys2Proof/Laws/Filter.lean ====
section
/-! SUPPORT. What `PUSH`, `READ` and `UPDATE` can change, each said once, and the sort's small lemmas. -/

namespace Sys2Proof.Machine

open Sys2Proof

theorem sortInsert_perm {α : Type} (N : Config.Numerics α) (x : α) (l : List α) :
    (sortInsert N x l).Perm (x :: l) := by
  induction l with
  | nil => exact List.Perm.refl _
  | cons y ys ih =>
    unfold sortInsert
    split
    · exact (ih.cons y).trans (List.Perm.swap x y ys)
    · exact List.Perm.refl _

@[simp] theorem sortInsert_length {α : Type} (N : Config.Numerics α) (x : α) (l : List α) :
    (sortInsert N x l).length = l.length + 1 :=
  (sortInsert_perm N x l).length_eq

@[simp] theorem sortAsc_length {α : Type} (N : Config.Numerics α) (l : List α) :
    (sortAsc N l).length = l.length := by
  induction l with
  | nil => rfl
  | cons x xs ih => simp [sortAsc, ih]

theorem sortAsc_perm {α : Type} (N : Config.Numerics α) (l : List α) : (sortAsc N l).Perm l := by
  induction l with
  | nil => exact List.Perm.refl _
  | cons x xs ih => exact (sortInsert_perm N x (sortAsc N xs)).trans (ih.cons x)

/-- The free order loses no element and adds none. -/
theorem freeOrder_perm {α : Type} (n : Nat) (l : List α) : (freeOrder n l).Perm l := by
  induction l with
  | nil => exact List.Perm.refl _
  | cons x xs ih =>
    refine (List.perm_insertIdx x (freeOrder n xs) ?_).trans (ih.cons x)
    have h : (freeOrder n xs).length = xs.length := ih.length_eq
    have := Nat.mod_lt (Config.tiePlace n xs.length) (show 0 < xs.length + 1 by omega)
    omega

/-- The sorted copy has the same elements as the window, each as often (rule R114). -/
theorem sortWindow_perm {α : Type} [DecidableEq α] (N : Config.Numerics α) (n : Nat) (buf : List α) :
    (sortWindow N n buf).Perm buf := by
  unfold sortWindow
  split
  · exact (sortAsc_perm N _).trans (freeOrder_perm n buf)
  · exact sortAsc_perm N buf

/-- What `weakOrder` says of the window. -/
theorem weakOrder_iff {α : Type} {N : Config.Numerics α} {buf : List α} :
    weakOrder N buf = true ↔ ∀ x ∈ buf, ∀ y ∈ buf, ¬(N.lt x y = true ∧ N.lt y x = true) ∧
      ∀ z ∈ buf, N.lt x z = true → N.lt x y = true ∨ N.lt y z = true := by
  simp only [weakOrder, List.all_eq_true, Bool.and_eq_true, Bool.not_eq_true', Bool.or_eq_true, Bool.and_eq_false_iff]
  refine forall₂_congr fun x _ => forall₂_congr fun y _ => and_congr ?_ (forall₂_congr fun z _ => ?_)
  · cases N.lt x y <;> cases N.lt y x <;> simp
  · cases N.lt x z <;> simp

/-- It asks only which elements the window has, not where they stand. -/
theorem weakOrder_perm {α : Type} {N : Config.Numerics α} {a b : List α} (h : a.Perm b) :
    weakOrder N a = true ↔ weakOrder N b = true := by
  simp only [weakOrder_iff, h.mem_iff]

/-- Insertion keeps a sequence ascending where `<f` orders it with the new element: no element is less than an earlier one. -/
theorem sortInsert_pairwise {α : Type} {N : Config.Numerics α} {x : α} {l : List α} (h : weakOrder N (x :: l) = true)
    (hl : l.Pairwise fun y z => N.lt z y = false) : (sortInsert N x l).Pairwise fun y z => N.lt z y = false := by
  rw [weakOrder_iff] at h
  induction l with
  | nil => simp [sortInsert]
  | cons y ys ih =>
    rw [List.pairwise_cons] at hl
    unfold sortInsert
    split
    · rename_i hyx
      rw [List.pairwise_cons]
      refine ⟨fun z hz => ?_, ih (fun a ha b hb => ?_) hl.2⟩
      · rcases List.mem_cons.1 ((sortInsert_perm N x ys).mem_iff.1 hz) with rfl | hz
        · simpa [hyx] using (h y (by simp) z (by simp)).1
        · exact hl.1 z hz
      · have s : ∀ z ∈ x :: ys, z ∈ x :: y :: ys := by
          intro z hz
          rcases List.mem_cons.1 hz with rfl | hz <;> simp [*]
        exact ⟨(h a (s a ha) b (s b hb)).1, fun z hz => (h a (s a ha) b (s b hb)).2 z (s z hz)⟩
    · rename_i hyx
      refine List.pairwise_cons.2 ⟨fun z hz => ?_, List.pairwise_cons.2 hl⟩
      rcases List.mem_cons.1 hz with rfl | hz
      · simpa using hyx
      · cases hzx : N.lt z x with
        | false => rfl
        | true =>
          rcases (h z (by simp [hz]) y (by simp)).2 x (by simp) hzx with h' | h'
          · rw [hl.1 z hz] at h'
            cases h'
          · exact absurd h' hyx

/-- The sorted copy is ascending wherever `<f` orders the window (rule R114). -/
theorem sortAsc_pairwise {α : Type} {N : Config.Numerics α} {l : List α} (h : weakOrder N l = true) :
    (sortAsc N l).Pairwise fun y z => N.lt z y = false := by
  induction l with
  | nil => simp [sortAsc]
  | cons x xs ih =>
    have hx : weakOrder N xs = true := by
      rw [weakOrder_iff] at h ⊢
      exact fun a ha b hb =>
        ⟨(h a (by simp [ha]) b (by simp [hb])).1, fun z hz => (h a (by simp [ha]) b (by simp [hb])).2 z (by simp [hz])⟩
    exact sortInsert_pairwise ((weakOrder_perm ((sortAsc_perm N xs).cons x)).2 h) (ih hx)

/-- So is the sorted copy the median takes its elements from. -/
theorem sortWindow_pairwise {α : Type} [DecidableEq α] {N : Config.Numerics α} {n : Nat} {buf : List α}
    (h : weakOrder N buf = true) : (sortWindow N n buf).Pairwise fun y z => N.lt z y = false := by
  unfold sortWindow
  split
  · exact sortAsc_pairwise ((weakOrder_perm (freeOrder_perm n buf)).2 h)
  · exact sortAsc_pairwise h

/-- Where `<f` is an order of the type, it orders every window (rule R114). -/
theorem orders_of_order {α : Type} {N : Config.Numerics α} (h : ∀ x y, N.lt x y = true → N.lt y x = false)
    (h' : ∀ x y z, N.lt x z = true → N.lt x y = true ∨ N.lt y z = true) (buf : List α) : orders N buf = true := by
  have hu : ∀ x, N.unordered x = false := by
    intro x
    have h1 := h' N.zero x N.one
    have h2 := h' N.one x N.zero
    simp only [Config.Numerics.unordered, Config.Numerics.related]
    revert h1 h2
    cases N.lt N.zero N.one <;> cases N.lt N.one N.zero <;> cases N.lt x N.zero <;> cases N.lt N.zero x <;>
      cases N.lt x N.one <;> cases N.lt N.one x <;> simp
  have hw : weakOrder N buf = true :=
    weakOrder_iff.2 fun x _ y _ => ⟨fun e => by simp [h x y e.1] at e, fun z _ => h' x y z⟩
  simp [orders, hu, hw]

/-- The median of a window `<f` orders is that of its sorted copy (rule R113). -/
theorem aggMedian_ordered {α : Type} [DecidableEq α] {N : Config.Numerics α} {buf : List α} (h : orders N buf = true)
    (nan : α) (n c : Nat) : aggMedian N nan n c buf = medianOf N c (sortWindow N n buf) := by
  simp [aggMedian, h]

/-- The median of a window `<f` does not order is the free value (U5). -/
theorem aggMedian_open {α : Type} [DecidableEq α] {N : Config.Numerics α} {buf : List α} (h : orders N buf = false)
    (nan : α) (n c : Nat) : aggMedian N nan n c buf = nan := by
  simp [aggMedian, h]

@[simp] theorem pushSlot_length (cur : Nat) (x : Number) (buf : List Number) :
    (pushSlot cur x buf).length = buf.length := by
  simp [pushSlot]

theorem nextCursor_lt {c : Nat} (h : 0 < c) (cur : Nat) : nextCursor c cur < c := Nat.mod_lt _ h

/-- A push of a filtered sensor writes one slot and the cursor of that sensor, and may draw one free value. -/
theorem push_state {k : Kind} {s : State} (x : Number) (h : s.filter k ≠ .none) :
    ∃ n, (push k x s).2 =
      { s with
        sensor := s.sensor.set k
          { s.regs k with buf := pushSlot (s.regs k).cur x (s.regs k).buf
                          cur := nextCursor (s.cap k) (s.regs k).cur }
        free := n } := by
  cases hf : s.filter k with
  | none => exact absurd hf h
  | mean => exact ⟨s.free, by simp only [push, hf]; rfl⟩
  | median => exact ⟨s.free + 1, by simp only [push, hf]; rfl⟩

/-- A read of an unfiltered sensor is a pure read. -/
theorem read_unfiltered {k : Kind} {s : State} (h : s.filter k = .none) : readSensor k s = ((s.regs k).value, s) := by
  simp [readSensor, h]

/-- A read of a filtered sensor is a push of the stored value. -/
theorem read_filtered {k : Kind} {s : State} (h : s.filter k ≠ .none) : readSensor k s = push k (s.regs k).value s := by
  cases hf : s.filter k with
  | none => exact absurd hf h
  | mean => simp [readSensor, hf]
  | median => simp [readSensor, hf]

/-- A read writes at most the window and the cursor of its sensor, and may draw one free value: the window keeps its
length, and a filtered sensor's cursor moves on by one. -/
theorem read_state (k : Kind) (s : State) :
    ∃ b c n, (readSensor k s).2 =
        { s with sensor := s.sensor.set k { s.regs k with buf := b, cur := c }, free := n } ∧
      b.length = (s.regs k).buf.length ∧
      (s.filter k ≠ .none → c = nextCursor (s.cap k) (s.regs k).cur) := by
  by_cases h : s.filter k = .none
  · refine ⟨(s.regs k).buf, (s.regs k).cur, s.free, ?_, rfl, fun h' => absurd h h'⟩
    rw [read_unfiltered h]
    show s = { s with sensor := s.sensor.set k (s.sensor.get k) }
    rw [PerKind.set_get_same]
  · obtain ⟨n, e⟩ := push_state (k := k) (s := s) (s.regs k).value h
    exact ⟨_, _, n, by rw [read_filtered h, e], pushSlot_length _ _ _, fun _ => rfl⟩

/-- An update writes only the stored value of its sensor, by one `RAW` invocation. -/
theorem update_state (k : Kind) (s : State) :
    updateSensor k s =
      { s.afterRaw k with
        sensor := s.sensor.set k { s.regs k with value := transform k (s.rawValue k) s } } := by
  simp [updateSensor, State.setValue, State.regs]

end Sys2Proof.Machine
end

