-- ==== Sys2Proof/Laws/Link.lean ====
section
/-! SUPPORT. What an instruction, an event and a step can do: one inversion lemma each. -/

namespace Sys2Proof.Machine

open Sys2Proof

/-- Every instruction answers a next state. -/
theorem exec_next (i : Instr) (s : State) : ∃ t, exec i s = .next t := by
  cases i <;> exact ⟨_, rfl⟩

/-- A telemetry frame of a present sensor goes to `tx`. -/
theorem exec_ofTelemetry (k : Kind) (v : Half) (s : State) :
    exec (Instr.ofTelemetry k v) s = .next (onPresent k (emitTelemetry k v) s) := by
  cases k <;> rfl

/-- `emitTelemetry` appends one encoded frame and does nothing else. -/
theorem emitTelemetry_eq (k : Kind) (v : Half) (s : State) :
    emitTelemetry k v s = { s with tx := s.tx ++ encodeTelemetry s.cfg.codes k v } :=
  State.emitFrame_eq _ _

/-- The fields no command writes. -/
theorem exec_ofCommand_keeps {k : Kind} {m : Command} {a : Half} {s t : State}
    (h : exec (Instr.ofCommand k m a) s = .next t) :
    t.cfg = s.cfg ∧ t.rxBuf = s.rxBuf ∧ t.rxCnt = s.rxCnt ∧ t.tx = s.tx ∧ t.sensor = s.sensor ∧
      t.tdsTemp = s.tdsTemp ∧ t.events = s.events := by
  cases k <;> cases m <;> cases h <;> (unfold onPresent; split <;> try unfold restorePh) <;>
    first
    | exact ⟨rfl, rfl, rfl, rfl, rfl, rfl, rfl⟩
    | simp
    | (split <;> simp)

/-- A dispatched pair of bytes runs the command it selects, or nothing. -/
theorem dispatch_cases (kb cb : Byte) (arg : Half) (s : State) :
    (commandInstr s.cfg.codes kb cb arg = none ∧ dispatch kb cb arg s = .next s) ∨
      ∃ k m, s.cfg.codes.kindOf kb = some k ∧ s.cfg.codes.commandOf cb = some m ∧
        dispatch kb cb arg s = exec (Instr.ofCommand k m arg) s := by
  unfold dispatch commandInstr
  cases hk : s.cfg.codes.kindOf kb with
  | none => exact .inl ⟨rfl, rfl⟩
  | some k =>
    cases hm : s.cfg.codes.commandOf cb with
    | none => exact .inl ⟨rfl, rfl⟩
    | some m => exact .inr ⟨k, m, rfl, rfl, rfl⟩

/-- The fields no dispatched command writes. -/
theorem dispatch_keeps {kb cb : Byte} {arg : Half} {s t : State} (h : dispatch kb cb arg s = .next t) :
    t.cfg = s.cfg ∧ t.rxBuf = s.rxBuf ∧ t.rxCnt = s.rxCnt ∧ t.tx = s.tx ∧ t.sensor = s.sensor ∧
      t.tdsTemp = s.tdsTemp ∧ t.events = s.events := by
  rcases dispatch_cases kb cb arg s with ⟨_, e⟩ | ⟨k, m, _, _, e⟩ <;> rw [e] at h
  · cases h
    simp
  · exact exec_ofCommand_keeps h

/-- A rejected chunk is dropped (rule R194). -/
theorem judgeChunk_error {s : State} {e : FrameError} (h : dec6 s.cfg.codes.pfx s.rxBuf.toList = .error e) :
    judgeChunk s = .next s := by
  simp [judgeChunk, h]

/-- An accepted chunk is dispatched (rule R99). -/
theorem judgeChunk_frame {s : State} {f : Frame6} (h : dec6 s.cfg.codes.pfx s.rxBuf.toList = .frame f) :
    judgeChunk s = dispatch f.kind f.command (frameArg f) s := by
  simp [judgeChunk, h]

/-- The three things a received byte can do (rule R99): wait for more, drop the chunk, or dispatch the frame. -/
theorem rxByte_cases (b : Byte) (s : State) :
    (s.rxCnt.val < 5 ∧ rxByte b s = .next ((s.storeRx b).setRxCnt (s.rxCnt + 1))) ∨
      (s.rxCnt = 5 ∧
        ((∃ e, dec6 s.cfg.codes.pfx (s.storeRx b).rxBuf.toList = .error e ∧
            rxByte b s = .next ((s.storeRx b).setRxCnt 0)) ∨
          ∃ f, dec6 s.cfg.codes.pfx (s.storeRx b).rxBuf.toList = .frame f ∧
            rxByte b s = dispatch f.kind f.command (frameArg f) ((s.storeRx b).setRxCnt 0))) := by
  by_cases h : s.rxCnt.val < 5
  · exact .inl ⟨h, by simp [rxByte, h]⟩
  · have h5 : s.rxCnt = 5 := by
      apply Fin.ext
      have := s.rxCnt.isLt
      show s.rxCnt.val = 5
      omega
    refine .inr ⟨h5, ?_⟩
    cases hd : dec6 s.cfg.codes.pfx (s.storeRx b).rxBuf.toList with
    | error e =>
      refine .inl ⟨e, rfl, ?_⟩
      rw [rxByte, if_neg h]
      exact judgeChunk_error hd
    | frame f =>
      refine .inr ⟨f, rfl, ?_⟩
      rw [rxByte, if_neg h]
      exact judgeChunk_frame hd

/-- The fields no received byte writes. -/
theorem rxByte_keeps {b : Byte} {s t : State} (h : rxByte b s = .next t) :
    t.cfg = s.cfg ∧ t.sensor = s.sensor ∧ t.tx = s.tx ∧ t.tdsTemp = s.tdsTemp ∧ t.events = s.events := by
  rcases rxByte_cases b s with ⟨_, e⟩ | ⟨_, ⟨_, _, e⟩ | ⟨f, _, e⟩⟩ <;> rw [e] at h
  · cases h
    exact ⟨rfl, rfl, rfl, rfl, rfl⟩
  · cases h
    exact ⟨rfl, rfl, rfl, rfl, rfl⟩
  · obtain ⟨h1, _, _, h2, h3, h4, h5⟩ := dispatch_keeps h
    exact ⟨h1, h3, h2, h4, h5⟩

/-- `HWRESET`'s share for one sensor writes the registers of that sensor and nothing else (rule R210). -/
theorem resetSensor_eq (k : Kind) (s : State) :
    resetSensor k s = { s with sensor := s.sensor.set k (
      if s.present k then
        if s.filter k = .none then { s.sensor.get k with value := (s.cfg.sensor.get k).initial }
        else
          { value := (s.cfg.sensor.get k).initial
            buf := List.replicate (s.cap k) (s.cfg.sensor.get k).initial
            cur := 0 }
      else s.sensor.get k) } := by
  unfold resetSensor onPresent
  split
  · cases hf : s.filter k <;> simp [State.setValue, State.setWindow, hf]
  · simp

/-- One sensor's share of a tick: nothing if it is absent; else an update, a read, and the frame of `Q10` of what the
read answers (rule R175). -/
theorem tickSensor_eq (k : Kind) (s : State) :
    tickSensor k s =
      if s.present k then
        .next (onPresent k (emitTelemetry k ((cfgNum s.cfg).q10 (readSensor k (updateSensor k s)).1)) (readSensor k (updateSensor k s)).2)
      else .next s := by
  simp [tickSensor, serve, exec_ofTelemetry]

/-- All that one sensor's share of a tick can do: nothing if the sensor is absent; else one `RAW` invocation, a new
stored value, a window of the same length, a moved cursor, and one telemetry frame on `tx`. -/
theorem tickSensor_cases {k : Kind} {s t : State} (h : tickSensor k s = .next t) :
    (s.present k = false ∧ t = s) ∨
      (s.present k = true ∧ ∃ (ans : List Number) (v : Number) (b : List Number) (c n : Nat) (q : Half),
        t = { s with
              rawAns := s.rawAns.set k ans
              rawLog := s.rawLog ++ [k]
              sensor := s.sensor.set k { value := v, buf := b, cur := c }
              free := n
              tx := s.tx ++ encodeTelemetry s.cfg.codes k q } ∧
        b.length = (s.regs k).buf.length ∧
        (s.filter k ≠ .none → c = nextCursor (s.cap k) (s.regs k).cur)) := by
  rw [tickSensor_eq] at h
  cases hp : s.present k with
  | false =>
    rw [if_neg (by simp [hp])] at h
    cases h
    exact .inl ⟨rfl, rfl⟩
  | true =>
    rw [if_pos hp] at h
    refine .inr ⟨rfl, ?_⟩
    generalize (cfgNum s.cfg).q10 (readSensor k (updateSensor k s)).1 = q at h
    obtain ⟨ans, m, ha⟩ := State.afterRaw_fields k s
    obtain ⟨b, c, n, hr, hb, hc⟩ := read_state k (updateSensor k s)
    have hu := update_state k s
    rw [ha] at hu
    rw [hr] at h
    rw [onPresent_present (by rw [hu]; exact hp), emitTelemetry_eq] at h
    cases h
    refine ⟨ans, transform k (s.rawValue k) s, b, c, n, q, ?_, ?_, ?_⟩
    · rw [hu]
      simp [State.regs]
    · rw [hb, hu]
      simp [State.regs]
    · intro hf
      rw [hc (by rw [hu]; exact hf), hu]
      simp [State.regs, State.cap]

/-- A tick always completes (rule R175: "a tick cannot fail"). -/
theorem tick_next (s : State) : ∃ t, tick s = .next t := by
  have h (k : Kind) (s : State) : ∃ t, tickSensor k s = .next t := by
    rw [tickSensor_eq]
    split <;> exact ⟨_, rfl⟩
  obtain ⟨t1, h1⟩ := h .temp s
  obtain ⟨t2, h2⟩ := h .ph t1
  obtain ⟨t3, h3⟩ := h .tds t2
  exact ⟨t3, by simp [tick, h1, h2, h3]⟩

/-- A tick runs the three shares in order (rule R177). -/
theorem tick_cases {s t : State} (h : tick s = .next t) :
    ∃ u v, tickSensor .temp s = .next u ∧ tickSensor .ph u = .next v ∧ tickSensor .tds v = .next t := by
  obtain ⟨v, hv, ht⟩ := andThen_next h
  obtain ⟨u, hu, hv'⟩ := andThen_next hv
  exact ⟨u, v, hu, hv', ht⟩

/-- A step takes the next event if the configuration is legal, and is refused if not. -/
theorem step_eq (s : State) :
    step s = if s.cfg.legal then nextEvent s else .refused .illegalConfiguration := rfl

/-- What a step that goes on did: it waited, or ran the next event. -/
theorem step_cases {s t : State} (h : step s = .next t) :
    s.cfg.legal = true ∧
      ((s.events = [] ∧ t = s) ∨
        ∃ e es, s.events = e :: es ∧ runEvent e (s.setEvents es) = .next t) := by
  rw [step_eq] at h
  split at h
  · rename_i hl
    refine ⟨hl, ?_⟩
    unfold nextEvent at h
    split at h
    · rename_i he
      cases h
      exact .inl ⟨he, rfl⟩
    · rename_i e es he
      exact .inr ⟨e, es, he, h⟩
  · cases h

/-- A step of a legal block runs the next event. -/
theorem step_event {s : State} {e : Event} {es : List Event} (hl : s.cfg.legal = true)
    (he : s.events = e :: es) : step s = runEvent e (s.setEvents es) := by
  rw [step_eq, if_pos hl]
  simp [nextEvent, he]

end Sys2Proof.Machine
end

