-- ==== Sys2Proof/Laws/Numerics.lean ====
section
/-! SUPPORT. Small lemmas about the binary32 numerics, the configured number type, and the formulas over a lifted record. -/

namespace Sys2Proof.Machine

open Sys2Proof

/-- The NaN an operation answers is a NaN, whatever its free bits are. -/
@[simp] theorem fIsNaN_fNaN (op : ArithOp) (a b : Num32) : fIsNaN (fNaN op a b) = true := by
  simp only [fIsNaN, fMag, fNaN, infMag, decide_eq_true_eq, BitVec.toNat_or, Nat.or_mod_two_pow]
  have h := Nat.right_le_or (n := (Config.nanBits op a b &&& 0x803FFFFF).toNat % 2 ^ 31)
    (m := (0x7FC00000 : BitVec 32).toNat % 2 ^ 31)
  have e : (0x7FC00000 : BitVec 32).toNat % 2 ^ 31 = 0x7FC00000 := by decide
  rw [e] at h ⊢
  omega

/-- Every number is finite, an infinity or a NaN. -/
theorem fClass (x : Num32) : fIsFinite x = true ∨ fIsInf x = true ∨ fIsNaN x = true := by
  simp only [fIsFinite, fIsInf, fIsNaN, decide_eq_true_eq]
  omega

theorem fIsNaN_of_finite {x : Num32} (h : fIsFinite x = true) : fIsNaN x = false := by
  simp only [fIsFinite, fIsNaN, decide_eq_true_eq, decide_eq_false_iff_not] at *
  omega

theorem fIsInf_of_finite {x : Num32} (h : fIsFinite x = true) : fIsInf x = false := by
  simp only [fIsFinite, fIsInf, decide_eq_true_eq, decide_eq_false_iff_not] at *
  omega

/-- A comparison with a NaN is false (rule R7). -/
theorem fLt_of_nan {a b : Num32} (h : fIsNaN a = true ∨ fIsNaN b = true) : fLt a b = false := by
  rcases h with h | h <;> simp [fLt, h]

/-- Between numbers that are no NaN, `<f` compares their places on the number line. -/
theorem fLt_eq {a b : Num32} (ha : fIsNaN a = false) (hb : fIsNaN b = false) :
    fLt a b = decide (fKey a < fKey b) := by
  simp [fLt, ha, hb]

theorem fLt_irrefl (a : Num32) : fLt a a = false := by
  simp [fLt]

theorem fLt_asymm {a b : Num32} (h : fLt a b = true) : fLt b a = false := by
  simp only [fLt, Bool.and_eq_true, decide_eq_true_eq] at h
  simp only [fLt, Bool.and_eq_false_iff, decide_eq_false_iff_not]
  right
  omega

theorem fLt_trans {a b c : Num32} (h : fLt a b = true) (h' : fLt b c = true) : fLt a c = true := by
  simp only [fLt, Bool.and_eq_true, decide_eq_true_eq] at *
  exact ⟨⟨h.1.1, h'.1.2⟩, by omega⟩

/-- The magnitude of a packed number. -/
theorem fMag_fPack {neg : Bool} {m : Nat} (h : m < 2 ^ 31) : fMag (fPack neg m) = m := by
  cases neg <;> simp [fMag, fPack, BitVec.toNat_ofNat] <;> omega

/-- The sign of a packed number. -/
theorem fNeg_fPack {neg : Bool} {m : Nat} (h : m < 2 ^ 31) : fNeg (fPack neg m) = neg := by
  cases neg <;> simp [fNeg, fPack, BitVec.toNat_ofNat] <;> omega

/-- Rounding never passes an infinity. -/
theorem roundMag_le (m e b : Nat) : roundMag m e b ≤ infMag := by
  unfold roundMag
  split
  · simp [infMag]
  · exact Nat.min_le_right _ _

@[simp] theorem roundMag_zero (e b : Nat) : roundMag 0 e b = 0 := by
  simp [roundMag]

/-- A calibration-model operation whose result U3 does not leave open is the rounded one. -/
theorem modelResult_closed {op : ArithOp} {a b r : Num32} (h : leftOpen op a b r = false) :
    modelResult op a b r = r := by
  simp [modelResult, h]

/-- A calibration-model operation whose result U3 leaves open is the free value of its operands. -/
theorem modelResult_open {op : ArithOp} {a b r : Num32} (h : leftOpen op a b r = true) :
    modelResult op a b r = Config.unspecified op a b := by
  simp [modelResult, h]

/-- A finite result is not left open, but for a division by zero. -/
theorem leftOpen_finite {op : ArithOp} {a b r : Num32} (h : fIsFinite r = true)
    (hd : op = .div → fIsZero b = false) : leftOpen op a b r = false := by
  simp only [leftOpen, fIsNaN_of_finite h, fIsInf_of_finite h]
  cases op <;> simp_all

/-- Under binary32 the numbers `<f` gives no place are the NaNs. -/
theorem unordered_binary32 (x : Num32) : binary32.unordered x = fIsNaN x := by
  have h0 : fKey (fOfNat 0) = 0 := by decide
  have h1 : fKey (fOfNat 1) = 1065353216 := by decide
  have n0 : fIsNaN (fOfNat 0) = false := by decide
  have n1 : fIsNaN (fOfNat 1) = false := by decide
  have e : binary32.related binary32.zero binary32.one = true := by decide
  show (binary32.related binary32.zero binary32.one && !(fLt x (fOfNat 0) || fLt (fOfNat 0) x) &&
    !(fLt x (fOfNat 1) || fLt (fOfNat 1) x)) = fIsNaN x
  rw [e]
  cases hx : fIsNaN x with
  | true => simp [fLt, hx]
  | false =>
    simp only [fLt, hx, n0, n1, h0, h1, Bool.not_false, Bool.true_and, Bool.and_eq_false_iff, Bool.not_eq_false',
      Bool.or_eq_true, decide_eq_true_eq]
    omega

/-- Under binary32 `<f` orders every window without a NaN, and no other (rule R114). -/
theorem orders_binary32 (buf : List Num32) : orders binary32 buf = !buf.any fIsNaN := by
  have hu : binary32.unordered = fIsNaN := funext unordered_binary32
  simp only [orders, hu]
  cases h : buf.any fIsNaN with
  | true => rfl
  | false =>
    simp only [List.any_eq_false, Bool.not_eq_true] at h
    have hw : weakOrder binary32 buf = true := by
      refine weakOrder_iff.2 fun x hx y hy => ⟨fun e => ?_, fun z hz e => ?_⟩
      · have := fLt_asymm e.1
        rw [show fLt y x = true from e.2] at this
        cases this
      · show fLt x y = true ∨ fLt y z = true
        have e' : fLt x z = true := e
        simp only [fLt_eq (h x hx) (h z hz), fLt_eq (h x hx) (h y hy), fLt_eq (h y hy) (h z hz), decide_eq_true_eq] at *
        omega
    simp [hw]

/-- Over the exact numbers `<f` orders every window (rule R114). -/
theorem orders_exactNum (buf : List ℚ) : orders exactNum buf = true := by
  refine orders_of_order (fun x y h => ?_) (fun x y z h => ?_) buf
  · simp only [exactNum, decide_eq_true_eq, decide_eq_false_iff_not] at *
    exact not_lt.2 h.le
  · simp only [exactNum, decide_eq_true_eq] at *
    exact (lt_or_ge x y).imp_right fun e => lt_of_le_of_lt e h

@[simp] theorem toB32_b32 (x : Num32) : (Number.b32 x).toB32 = x := rfl
@[simp] theorem toRat_exact (q : ℚ) : (Number.exact q).toRat = q := rfl

@[simp] theorem NumSel.cast_binary32 (x : Num32) : NumSel.binary32.cast (.b32 x) = .b32 x := rfl
@[simp] theorem NumSel.cast_exact (q : ℚ) : NumSel.exact.cast (.exact q) = .exact q := rfl
@[simp] theorem NumSel.cast_other (n : Nat) (x : Number) : (NumSel.other n).cast x = x := rfl
/-- The values a cast leaves alone are those of the configured type. -/
theorem NumSel.holds_iff (m : NumSel) (x : Number) : m.holds x = true ↔ m.cast x = x := by
  cases m <;> cases x <;> simp [NumSel.holds, NumSel.cast]
@[simp] theorem NumSel.holds_cast (m : NumSel) (x : Number) : m.holds (m.cast x) = true := by
  cases m <;> rfl
@[simp] theorem NumSel.cast_cast (m : NumSel) (x : Number) : m.cast (m.cast x) = m.cast x := by
  cases m <;> rfl

/-- Whether `<f` orders a window does not depend on the conversion. -/
@[simp] theorem orders_withQ10 (q : Q10Sel) (N : Config.Numerics Number) (buf : List Number) :
    orders (withQ10 q N) buf = orders N buf := by
  cases q <;> rfl

/-- The numerics of a block configured with binary32 and its own conversion (rule R7). -/
theorem cfgNum_binary32 {c : Cfg} (h : c.num = .binary32) (hq : c.q10 = .ofNum) :
    cfgNum c = liftNum .b32 Number.toB32 binary32 := by
  simp [cfgNum, withQ10, h, hq]

/-- The numerics of its calibration models. -/
theorem cfgModelNum_binary32 {c : Cfg} (h : c.num = .binary32) (hq : c.q10 = .ofNum) :
    cfgModelNum c = liftNum .b32 Number.toB32 modelNum := by
  simp [cfgModelNum, withQ10, h, hq]

/-- The numerics of a block configured with the exact numbers. -/
theorem cfgNum_exact {c : Cfg} (h : c.num = .exact) (hq : c.q10 = .ofNum) :
    cfgNum c = liftNum .exact Number.toRat exactNum := by
  simp [cfgNum, withQ10, h, hq]

/-- The numerics of its calibration models. -/
theorem cfgModelNum_exact {c : Cfg} (h : c.num = .exact) (hq : c.q10 = .ofNum) :
    cfgModelNum c = liftNum .exact Number.toRat exactModelNum := by
  simp [cfgModelNum, withQ10, h, hq]

/-! ### A formula over the lifted record is the lifted formula -/

section Lift

variable {α : Type} {inj : α → Number} {proj : Number → α} (h : ∀ x, proj (inj x) = x) (N : Config.Numerics α)
include h

theorem xformPhBasic_lift (k offset v : α) :
    xformPhBasic (liftNum inj proj N) (inj k) (inj offset) (inj v) = inj (xformPhBasic N k offset v) := by
  simp [xformPhBasic, liftNum, h]

theorem xformPhAdv_lift (low mid high v : α) :
    xformPhAdv (liftNum inj proj N) (inj low) (inj mid) (inj high) (inj v) = inj (xformPhAdv N low mid high v) := by
  by_cases hb : N.lt mid v = true <;> simp [xformPhAdv, liftNum, Config.Numerics.gt, h, hb]

theorem phOffsetFor_lift (k v : α) : phOffsetFor (liftNum inj proj N) (inj k) (inj v) = inj (phOffsetFor N k v) := by
  simp [phOffsetFor, liftNum, h]

theorem xformTds_lift (c : TdsCfg α) (probe temp v : α) :
    xformTds (liftNum inj proj N) (c.map inj) (inj probe) (inj temp) (inj v) = inj (xformTds N c probe temp v) := by
  simp [xformTds, tdsPoly, tdsComp, TdsCfg.map, liftNum, h]

theorem tdsProbeFor_lift (c : TdsCfg α) (temp : α) (arg : Half) (v : α) :
    tdsProbeFor (liftNum inj proj N) (c.map inj) (inj temp) arg (inj v) = inj (tdsProbeFor N c temp arg v) := by
  simp [tdsProbeFor, argTenths, tdsPoly, tdsComp, TdsCfg.map, liftNum, h]

theorem aggMean_lift (c : Nat) (buf : List α) :
    aggMean (liftNum inj proj N) c (buf.map inj) = inj (aggMean N c buf) := by
  have hf : ∀ (l : List α) (a : α), (l.map inj).foldl (liftNum inj proj N).add (inj a) = inj (l.foldl N.add a) := by
    intro l
    induction l with
    | nil => exact fun _ => rfl
    | cons x xs ih =>
      intro a
      have e : (liftNum inj proj N).add (inj a) (inj x) = inj (N.add a x) := by simp [liftNum, h]
      rw [List.map_cons, List.foldl_cons, e, ih, List.foldl_cons]
  have e := hf buf N.zero
  show inj (N.div (proj _) (proj (inj (N.ofNat c)))) = _
  rw [show (liftNum inj proj N).zero = inj N.zero from rfl, e, h, h]
  rfl

theorem orders_lift (buf : List Number) : orders (liftNum inj proj N) buf = orders N (buf.map proj) := by
  have hu : (liftNum inj proj N).unordered = fun x => N.unordered (proj x) :=
    funext fun x => by simp [Config.Numerics.unordered, Config.Numerics.related, liftNum, h]
  simp only [orders, weakOrder, hu, List.any_map, List.all_map, Function.comp_def]
  rfl

theorem sortAsc_lift (buf : List α) : sortAsc (liftNum inj proj N) (buf.map inj) = (sortAsc N buf).map inj := by
  have hi : ∀ (x : α) (l : List α), sortInsert (liftNum inj proj N) (inj x) (l.map inj) = (sortInsert N x l).map inj := by
    intro x l
    induction l with
    | nil => rfl
    | cons y ys ih =>
      have e : (liftNum inj proj N).lt (inj y) (inj x) = N.lt y x := by simp [liftNum, h]
      simp only [List.map_cons, sortInsert, e, ih]
      split <;> simp
  induction buf with
  | nil => rfl
  | cons x xs ih => rw [List.map_cons, sortAsc, ih, hi]; rfl

theorem medianOf_lift (c : Nat) (srt : List α) :
    medianOf (liftNum inj proj N) c (srt.map inj) = inj (medianOf N c srt) := by
  have e : ∀ i, (srt.map inj).getD i (inj N.zero) = inj (srt.getD i N.zero) := fun i => by simp [List.getD]
  simp only [medianOf]
  split
  · exact e _
  · show inj (N.div (proj (inj (N.add (proj ((srt.map inj).getD _ (inj N.zero))) (proj ((srt.map inj).getD _ (inj N.zero))))))
      (proj (inj N.two))) = _
    rw [e, e, h, h, h, h]

end Lift

/-- The median of a lifted window without different elements that compare equal is the lifted median: the free order
matters nowhere else. -/
theorem aggMedian_lift {α : Type} [DecidableEq α] {inj : α → Number} {proj : Number → α} (h : ∀ x, proj (inj x) = x)
    (N : Config.Numerics α) {buf : List α} (ho : orders N buf = true) (ht : hasTies N buf = false) (nan : Number) (n c : Nat) :
    aggMedian (liftNum inj proj N) nan n c (buf.map inj) = inj (medianOf N c (sortAsc N buf)) := by
  have hj : ∀ x y, inj x = inj y ↔ x = y := fun x y => ⟨fun e => by rw [← h x, e, h], fun e => by rw [e]⟩
  have ht' : hasTies (liftNum inj proj N) (buf.map inj) = false := by
    rw [← ht]
    simp [hasTies, liftNum, h, hj, Function.comp_def]
  have ho' : orders (liftNum inj proj N) (buf.map inj) = true := by simp [orders_lift h, Function.comp_def, h, ho]
  rw [aggMedian_ordered ho', sortWindow, ht', if_neg (by simp), sortAsc_lift h, medianOf_lift h]

end Sys2Proof.Machine
end

