-- ==== Sys2Proof/Laws/PerInstr.lean ====
section
/-! SUPPORT. Facts about every instruction as syntax, one lemma a constructor. -/

namespace Sys2Proof.Laws.Encoding

open Sys2Proof

/-- Whatever the codes, the encoding of the instruction is a valid frame of one of the two formats (rules R70, R80). -/
def Statement (i : Instr) : Prop :=
  ∀ c : Codes, validFrame c.pfx 6 (encode c i) = true ∨ validFrame c.pfx 5 (encode c i) = true

theorem command {i : Instr} {k : Kind} {m : Command} {a : Half} (h : ∀ c, encode c i = encodeCommand c k m a) :
    Statement i := by
  intro c
  rw [h]
  exact .inl (validFrame_enc6 _ _ _ _ _)

theorem telemetry {i : Instr} {k : Kind} {v : Half} (h : ∀ c, encode c i = encodeTelemetry c k v) : Statement i := by
  intro c
  rw [h]
  exact .inr (validFrame_enc5 _ _ _ _)

theorem tempReset (a : Half) : Statement (.tempReset a) := command fun _ => rfl
theorem tempCalibrate (a : Half) : Statement (.tempCalibrate a) := command fun _ => rfl
theorem tempCalLow (a : Half) : Statement (.tempCalLow a) := command fun _ => rfl
theorem tempCalMid (a : Half) : Statement (.tempCalMid a) := command fun _ => rfl
theorem tempCalHigh (a : Half) : Statement (.tempCalHigh a) := command fun _ => rfl
theorem tempSetMode (a : Half) : Statement (.tempSetMode a) := command fun _ => rfl
theorem phReset (a : Half) : Statement (.phReset a) := command fun _ => rfl
theorem phCalibrate (a : Half) : Statement (.phCalibrate a) := command fun _ => rfl
theorem phCalLow (a : Half) : Statement (.phCalLow a) := command fun _ => rfl
theorem phCalMid (a : Half) : Statement (.phCalMid a) := command fun _ => rfl
theorem phCalHigh (a : Half) : Statement (.phCalHigh a) := command fun _ => rfl
theorem phSetMode (a : Half) : Statement (.phSetMode a) := command fun _ => rfl
theorem tdsReset (a : Half) : Statement (.tdsReset a) := command fun _ => rfl
theorem tdsCalibrate (a : Half) : Statement (.tdsCalibrate a) := command fun _ => rfl
theorem tdsCalLow (a : Half) : Statement (.tdsCalLow a) := command fun _ => rfl
theorem tdsCalMid (a : Half) : Statement (.tdsCalMid a) := command fun _ => rfl
theorem tdsCalHigh (a : Half) : Statement (.tdsCalHigh a) := command fun _ => rfl
theorem tdsSetMode (a : Half) : Statement (.tdsSetMode a) := command fun _ => rfl
theorem tlmTemp (v : Half) : Statement (.tlmTemp v) := telemetry fun _ => rfl
theorem tlmPh (v : Half) : Statement (.tlmPh v) := telemetry fun _ => rfl
theorem tlmTds (v : Half) : Statement (.tlmTds v) := telemetry fun _ => rfl

end Sys2Proof.Laws.Encoding
end

