-- ==== Sys2Proof/Tests/Slice0.lean ====
section
/-! SUPPORT. Tests, one step each, with the values of spec/95_test_vectors.md (a row's id stands in the test's comment), and
the witnesses: for each statement with hypotheses, concrete values that meet them together. -/

namespace Sys2Proof.Tests

open Sys2Proof Sys2Proof.Machine

/-! ### Small states -/

/-- A present sensor of the given filter and window size, initial value 0. -/
def sensorOf (f : FilterSel) (c : Nat) : SensorCfg := { present := true, filter := f, cap := c, initial := .b32 0 }

/-- The TDS constants of the test instantiation T. -/
def tdsT : TdsCfg Num32 where
  a3 := 0x3F800000
  a2 := 0x40000000
  a1 := 0x40800000
  a0 := 0
  tempCoeff := 0x3F000000
  factor := 0x3F000000
  defProbe := 0x3F800000

/-- The test instantiation T of 95_test_vectors.md, all sensors present, no filter. -/
def cfgT : Cfg where
  codes := Codes.default
  sensor := { temp := sensorOf .none 8, ph := sensorOf .none 8, tds := sensorOf .none 8 }
  ph :=
    { k := .b32 0x40600000, initMode := .basic, defLow := .b32 0x3F800000, defMid := .b32 0x40000000
      defHigh := .b32 0x40400000 }
  tds := tdsT.map .b32
  num := .binary32
  q10 := .ofNum

/-- T with the filter of the Temperature sensor. -/
def cfgTemp (f : FilterSel) (c : Nat) : Cfg := { cfgT with sensor := { cfgT.sensor with temp := sensorOf f c } }

/-- T with no sensor present. -/
def cfgNone : Cfg :=
  { cfgT with
    sensor :=
      { temp := { sensorOf .none 8 with present := false }
        ph := { sensorOf .none 8 with present := false }
        tds := { sensorOf .none 8 with present := false } } }

/-- A block over the exact numbers, its `PH_K` 3.5. -/
def cfgExact : Cfg :=
  let z : SensorCfg := { sensorOf .none 8 with initial := .exact 0 }
  { cfgT with
    sensor := { temp := z, ph := z, tds := z }
    ph := { k := .exact (7 / 2), initMode := .basic, defLow := .exact 1, defMid := .exact 2, defHigh := .exact 3 }
    tds :=
      TdsCfg.map .exact { a3 := 1, a2 := 2, a1 := 4, a0 := 0, tempCoeff := 1 / 2, factor := 1 / 2, defProbe := 1 }
    num := .exact }

/-- The rational numbers ordered upside down: a total order in which 1 is below 0. -/
def reversed : Config.Numerics ℚ := { exactNum with lt := fun a b => decide (b < a) }

/-- The block of T after its first reset. -/
def sT : State := State.initial cfgT

/-- The block with no sensor after its first reset. -/
def sNone : State := State.initial cfgNone

/-- T in advanced mode. -/
def sAdv : State := { sT with phMode := .advanced }

/-- T with the next answers of the front end. -/
def ask (temp ph tds : List Num32) (s : State) : State :=
  { s with rawAns := { temp := temp.map .b32, ph := ph.map .b32, tds := tds.map .b32 } }

/-- Five bytes of a chunk received and the sixth arriving. -/
def chunk (b0 b1 b2 b3 b4 b5 : Byte) (s : State) : State := loadCommand [b0, b1, b2, b3, b4, b5] s

/-- A Temperature sensor with filter `f`, the given window, cursor and stored value. -/
def window (f : FilterSel) (buf : List Num32) (cur : Nat) (v : Num32) : State :=
  { State.initial (cfgTemp f buf.length) with
    sensor := { sT.sensor with temp := { value := .b32 v, buf := buf.map .b32, cur := cur } } }

/-- The next state, if there is one. -/
def nextState : Outcome → Option State
  | .next s => some s
  | .fault _ => none
  | .refused _ => none

/-- One reading of the next state, if there is one. -/
def see {α : Type} (f : State → α) (o : Outcome) : Option α := (nextState o).map f

/-! ### Well-formedness: each check refuses an ill-formed term (rules R212, R116) -/

theorem test_legal_default : Config.default.legal = true := by decide
theorem test_illegal_kind_codes :
    ({ cfgT with codes := { Codes.default with kind := { temp := 0, ph := 1, tds := 1 } } } : Cfg).legal = false := by
  decide
theorem test_illegal_command_codes :
    ({ cfgT with codes := { Codes.default with cmd := { Codes.default.cmd with setMode := 0 } } } : Cfg).legal = false := by
  decide
theorem test_illegal_capacity_zero : (cfgTemp .mean 0).legal = false := by decide
theorem test_illegal_median_capacity_zero : (cfgTemp .median 0).legal = false := by decide
theorem test_illegal_median_capacity_two : (cfgTemp .median 2).legal = false := by decide
theorem test_legal_mean_capacity_two : (cfgTemp .mean 2).legal = true := by decide
theorem test_legal_absent_sensor :
    ({ cfgT with sensor := { cfgT.sensor with temp := { sensorOf .median 2 with present := false } } } : Cfg).legal
      = true := by decide
theorem test_legal_unfiltered : (cfgTemp .none 0).legal = true := by decide

/-! ### Decoding: a word of every row of the opcode map (rule R84), checksums by hand -/

theorem test_decode_tempReset : decode Codes.default [0x53, 0x00, 0x00, 0x00, 0x00, 0x53] = .instr (.tempReset 0) := by
  decide
theorem test_decode_tempCalibrate :
    decode Codes.default [0x53, 0x00, 0x01, 0x00, 0x00, 0x54] = .instr (.tempCalibrate 0) := by decide
theorem test_decode_tempCalLow :
    decode Codes.default [0x53, 0x00, 0x02, 0x00, 0x00, 0x55] = .instr (.tempCalLow 0) := by decide
theorem test_decode_tempCalMid :
    decode Codes.default [0x53, 0x00, 0x03, 0x00, 0x00, 0x56] = .instr (.tempCalMid 0) := by decide
theorem test_decode_tempCalHigh :
    decode Codes.default [0x53, 0x00, 0x04, 0x00, 0x00, 0x57] = .instr (.tempCalHigh 0) := by decide
theorem test_decode_tempSetMode :
    decode Codes.default [0x53, 0x00, 0x05, 0x00, 0x01, 0x59] = .instr (.tempSetMode 1) := by decide
theorem test_decode_phReset : decode Codes.default [0x53, 0x01, 0x00, 0x01, 0xFF, 0x54] = .instr (.phReset 511) := by
  decide
theorem test_decode_phCalibrate :
    decode Codes.default [0x53, 0x01, 0x01, 0x12, 0x34, 0x9B] = .instr (.phCalibrate 0x1234) := by decide
theorem test_decode_phCalLow : decode Codes.default [0x53, 0x01, 0x02, 0x00, 0x00, 0x56] = .instr (.phCalLow 0) := by
  decide
theorem test_decode_phCalMid : decode Codes.default [0x53, 0x01, 0x03, 0x00, 0x00, 0x57] = .instr (.phCalMid 0) := by
  decide
theorem test_decode_phCalHigh : decode Codes.default [0x53, 0x01, 0x04, 0x00, 0x00, 0x58] = .instr (.phCalHigh 0) := by
  decide
theorem test_decode_phSetMode :
    decode Codes.default [0x53, 0x01, 0x05, 0x01, 0x00, 0x5A] = .instr (.phSetMode 256) := by decide
theorem test_decode_tdsReset : decode Codes.default [0x53, 0x02, 0x00, 0x00, 0x00, 0x55] = .instr (.tdsReset 0) := by
  decide
theorem test_decode_tdsCalibrate :
    decode Codes.default [0x53, 0x02, 0x01, 0x1B, 0x9E, 0x0F] = .instr (.tdsCalibrate 7070) := by decide
theorem test_decode_tdsCalLow : decode Codes.default [0x53, 0x02, 0x02, 0x00, 0x00, 0x57] = .instr (.tdsCalLow 0) := by
  decide
theorem test_decode_tdsCalMid : decode Codes.default [0x53, 0x02, 0x03, 0x00, 0x00, 0x58] = .instr (.tdsCalMid 0) := by
  decide
theorem test_decode_tdsCalHigh :
    decode Codes.default [0x53, 0x02, 0x04, 0x00, 0x00, 0x59] = .instr (.tdsCalHigh 0) := by decide
theorem test_decode_tdsSetMode :
    decode Codes.default [0x53, 0x02, 0x05, 0x00, 0x01, 0x5B] = .instr (.tdsSetMode 1) := by decide
theorem test_decode_tlmTemp : decode Codes.default [0x53, 0x00, 0xFF, 0xFF, 0x51] = .instr (.tlmTemp 0xFFFF) := by decide
theorem test_decode_tlmPh : decode Codes.default [0x53, 0x01, 0x00, 0x46, 0x9A] = .instr (.tlmPh 70) := by decide
theorem test_decode_tlmTds : decode Codes.default [0x53, 0x02, 0x12, 0x34, 0x9B] = .instr (.tlmTds 0x1234) := by decide

/-- V18: a valid frame with unassigned codes is no instruction. -/
theorem test_decode_unassigned : decode Codes.default [0x53, 0x07, 0x09, 0x00, 0x00, 0x63] = .reject .unassigned := by
  decide
theorem test_decode_bad_length : decode Codes.default [0x53, 0x02, 0x01, 0x1B] = .reject (.invalid .badLength) := by
  decide

/-- R86: a table word is read big-endian; its checksum byte is completed where it is left 0. -/
theorem test_table_word_command : decodeTableWord 48 0x530201000000 = some (.tdsCalibrate 0) := by decide
theorem test_table_word_argument : decodeTableWord 48 0x5302011B9E0F = some (.tdsCalibrate 7070) := by decide
theorem test_table_word_telemetry : decodeTableWord 40 0x5301000000 = some (.tlmPh 0) := by decide
theorem test_table_word_bad_checksum : decodeTableWord 48 0x530201000001 = none := by decide

/-! ### The Frame Codec (section 2.1 of the vectors) -/

/-- V3. -/
theorem test_checksum_wraps : checksum [0xFF, 0xFF, 0x02] = 0x00 := by decide
/-- V7. -/
theorem test_enc6_all_ones : enc6 0x53 0xFF 0xFF 0xFF 0xFF = [0x53, 0xFF, 0xFF, 0xFF, 0xFF, 0x4F] := by decide
/-- V10. -/
theorem test_enc5 : enc5 0x53 0x02 0x12 0x34 = [0x53, 0x02, 0x12, 0x34, 0x9B] := by decide
/-- V12. -/
theorem test_dec6_checksum_mismatch : dec6 0x53 [0x53, 0x02, 0x01, 0x1B, 0x9E, 0x10] = .error .checksumMismatch := by
  decide
/-- V13: the prefix is tested before the checksum. -/
theorem test_dec6_bad_prefix : dec6 0x53 [0x54, 0x02, 0x01, 0x1B, 0x9E, 0x10] = .error .badPrefix := by decide
/-- V15: the length is tested first. -/
theorem test_dec6_bad_length : dec6 0x53 [0x54, 0x02, 0x01, 0x1B] = .error .badLength := by decide
/-- V16. -/
theorem test_dec5 : dec5 0x53 [0x53, 0x01, 0x00, 0x46, 0x9A] = .frame { kind := 1, valueHi := 0, valueLo := 0x46 } := by
  decide
/-- V17. -/
theorem test_dec5_checksum_mismatch : dec5 0x53 [0x53, 0x01, 0x00, 0x46, 0x9B] = .error .checksumMismatch := by decide

/-! ### The numerics (sections 2.2 to 2.4 of the vectors) -/

/-- W6. -/
theorem test_div_third : fDiv (fOfNat 1) (fOfNat 3) = 0x3EAAAAAB := by decide
/-- Q5: the product rounds up to 1. -/
theorem test_mul_rounds_up : fMul 0x3DCCCCCD (fOfNat 10) = fOfNat 1 := by decide
/-- Q2. -/
theorem test_q10_truncates : fQ10 0x410C0000 = 87 := by decide
/-- Q6. -/
theorem test_q10_seven_tenths : fQ10 0x3F333333 = 7 := by decide
/-- Q7. -/
theorem test_q10_just_below : fQ10 0x3DCCC78F = 0 := by decide
/-- Q12. -/
theorem test_q10_below_top : fQ10 0x45CCCB33 = 65534 := by decide
/-- Q13. -/
theorem test_q10_top : fQ10 0x45CCCC00 = 65535 := by decide
/-- Q15, the infinity. -/
theorem test_q10_infinity : fQ10 0x7F800000 = 65535 := by decide
/-- Q10a. -/
theorem test_q10_negative : fQ10 0xBF800000 = 0 := by decide
/-- E5: one unit in the last place below 7. -/
theorem test_calibration_inexact_below :
    xformPhBasic modelNum 0x40600000 (phOffsetFor modelNum 0x40600000 0xBD3AFA95) 0xBD3AFA95 = 0x40DFFFFF := by decide
/-- E4. -/
theorem test_calibration_exact :
    xformPhBasic modelNum 0x40600000 (phOffsetFor modelNum 0x40600000 0x3DCCCCCD) 0x3DCCCCCD = 0x40E00000 := by decide

/-- R7: another numerics and another conversion are a matter of the configuration, and nothing is known of them. -/
theorem test_other_numerics :
    see (·.phZeroOffset) (exec (.phReset 0) { sT with cfg := { cfgT with num := .other 3 } }) =
      some (Config.otherNum 3).zero ∧
    (cfgNum { cfgT with q10 := .other 3 }).q10 = Config.otherQ10 3 := ⟨rfl, rfl⟩

/-- R7, R147: over exact numbers the offset `7/k - v` is not rounded: 2 - 1/3 = 5/3. -/
theorem test_exact_numerics :
    see (·.phZeroOffset) (exec (.phCalibrate 0)
      { State.initial cfgExact with rawAns := { temp := [], ph := [.exact (1 / 3)], tds := [] } }) =
      some (.exact (5 / 3)) := by decide +kernel

/-! ### The models (section 2.3 of the vectors) -/

/-- X7. -/
theorem test_adv_upper : xformPhAdv modelNum 0x3F800000 0x40000000 0x40400000 0x40200000 = 0x41080000 := by decide
/-- X13. -/
theorem test_adv_lower : xformPhAdv modelNum 0x3F800000 0x40200000 0x40600000 0x3FE00000 = 0x40B00000 := by decide
/-- X10: equality takes the second branch. -/
theorem test_adv_pivot : xformPhAdv modelNum 0x3F800000 0x40000000 0x40400000 0x40000000 = 0x40E00000 := by decide
/-- X15. -/
theorem test_tdsPoly : tdsPoly modelNum tdsT 0x40000000 = 0x41C00000 := by decide
/-- X19. -/
theorem test_tdsComp_zero : tdsComp modelNum tdsT 0x41B80000 = 0 := by decide
/-- X22. -/
theorem test_xformTds : xformTds modelNum tdsT 0x40000000 0x41D80000 0x40000000 = 0x41400000 := by decide +kernel

/-! ### The Filter Engine (section 2.2 of the vectors) -/

/-- W1, the fifth push. -/
theorem test_push_mean :
    (push .temp (.b32 0x41000000) (window .mean [0x40800000, 0x40800000, 0x40800000, 0x40800000] 0 0)).1 = .b32 0x40A00000 := by
  decide
/-- W7, the sixth push: the slot, the cursor, and the two largest of four. -/
theorem test_push_median :
    let r := push .temp (.b32 0x40C00000) (window .median [0x40A00000, 0x40000000, 0x40400000, 0x40800000] 1 0)
    r.1 = .b32 0x40B00000 ∧
    r.2.sensor.temp.buf = ([0x40A00000, 0x40C00000, 0x40400000, 0x40800000] : List Num32).map .b32 ∧
    r.2.sensor.temp.cur = 2 := by decide
/-- W11, the fifth push: an odd window. -/
theorem test_median_odd :
    aggMedian binary32 0 0 5 [0x40A00000, 0x3F800000, 0x40800000, 0x40000000, 0x40400000] = 0x40400000 := by decide
/-- W8, the eighth push: the fifth and sixth smallest of eight. -/
theorem test_median_eight :
    aggMedian binary32 0 0 8 ((List.range 8).map fun i => fOfNat (i + 1)) = 0x40B00000 := by decide
/-- R114, U6: the two zeros stand in either order, and the median of -1, -1, +0, -0 is +0 in both. -/
theorem test_median_both_zeros (nan : Num32) (n : Nat) :
    aggMedian binary32 nan n 4 [0xBF800000, 0xBF800000, 0x00000000, 0x80000000] = 0x00000000 := by
  have key : ∀ (d : Fin 4) (c : Fin 3) (b : Fin 2) (a : Fin 1), medianOf binary32 4 (sortAsc binary32
      ((((([] : List Num32).insertIdx a.val 0x80000000).insertIdx b.val 0x00000000).insertIdx c.val 0xBF800000).insertIdx
        d.val 0xBF800000)) = 0x00000000 := by decide +kernel
  rw [aggMedian_ordered (by rw [orders_binary32]; decide), sortWindow, if_pos (by decide)]
  exact key ⟨_, Nat.mod_lt _ (by decide)⟩ ⟨_, Nat.mod_lt _ (by decide)⟩ ⟨_, Nat.mod_lt _ (by decide)⟩
    ⟨_, Nat.mod_lt _ (by decide)⟩

/-- U5: a window with a NaN gives a free value. -/
theorem test_median_nan (nan : Num32) (n : Nat) : aggMedian binary32 nan n 1 [0x7FC00000] = nan :=
  aggMedian_open (by rw [orders_binary32]; decide) nan n 1

/-- R7, R114: a record whose `<f` is a total order with 1 below 0 defines the median too: of 5, 0, 1 it is 1. -/
theorem test_median_reversed_order (nan : ℚ) (n : Nat) : aggMedian reversed nan n 3 [5, 0, 1] = 1 := by
  rw [aggMedian_ordered (by decide), sortWindow, if_neg (by decide)]
  decide

/-- T3: a read pushes the stored value, without an update. -/
theorem test_read_filtered : (readSensor .temp (window .mean [0, 0, 0, 0] 0 0x40800000)).1 = .b32 0x3F800000 := by decide

/-! ### The commands, one step each (section 2.4 of the vectors) -/

/-- K22. -/
theorem test_tempReset : nextState (step (chunk 0x53 0 0 0 0 0x53 sT)) =
    some { sT with rxBuf := #v[0x53, 0, 0, 0, 0, 0x53] } := by decide
/-- K21: no `RAW` invocation. -/
theorem test_tempCalibrate : see (·.rawLog) (step (chunk 0x53 0 1 0 0 0x54 sT)) = some [] := by decide
/-- K1. -/
theorem test_phCalibrate :
    see (fun t => (t.phZeroOffset, t.rawLog)) (step (chunk 0x53 1 1 0 0 0x55 (ask [] [0x3FC00000] [] sT))) =
      some (.b32 0x3F000000, [.ph]) := by decide
/-- K4: not gated by the mode. -/
theorem test_phCalibrate_advanced :
    see (fun t => (t.phZeroOffset, t.phMode)) (exec (.phCalibrate 0) (ask [] [0x3FC00000] [] sAdv)) =
      some (.b32 0x3F000000, .advanced) := by decide
/-- K5. -/
theorem test_phCalLow :
    see (fun t => (t.phLow, t.phMid, t.phHigh)) (step (chunk 0x53 1 2 0 0 0x56 (ask [] [0x3F400000] [] sT))) =
      some (.b32 0x3F400000, .b32 0x40000000, .b32 0x40400000) := by decide
/-- K6. -/
theorem test_phCalMid :
    see (fun t => (t.phLow, t.phMid, t.phHigh)) (step (chunk 0x53 1 3 0 0 0x57 (ask [] [0x40200000] [] sT))) =
      some (.b32 0x3F800000, .b32 0x40200000, .b32 0x40400000) := by decide
/-- K7. -/
theorem test_phCalHigh :
    see (fun t => (t.phLow, t.phMid, t.phHigh)) (step (chunk 0x53 1 4 0 0 0x58 (ask [] [0x40600000] [] sT))) =
      some (.b32 0x3F800000, .b32 0x40000000, .b32 0x40600000) := by decide
/-- K8. -/
theorem test_phSetMode : see (·.phMode) (step (chunk 0x53 1 5 0 1 0x5A sT)) = some .advanced := by decide
/-- K11: the argument is 256. -/
theorem test_phSetMode_ignored : see (·.phMode) (step (chunk 0x53 1 5 1 0 0x5A sT)) = some .basic := by decide
/-- K12. -/
theorem test_phReset_basic :
    see (fun t => (t.phZeroOffset, t.phLow)) (exec (.phReset 0) { sT with phZeroOffset := .b32 0x3F000000, phLow := .b32 0x3F400000 }) =
      some (.b32 0, .b32 0x3F400000) := by decide
/-- K13. -/
theorem test_phReset_advanced :
    see (fun t => (t.phZeroOffset, t.phLow)) (exec (.phReset 0) { sAdv with phZeroOffset := .b32 0x3F000000, phLow := .b32 0x3F400000 }) =
      some (.b32 0x3F000000, .b32 0x3F800000) := by decide
/-- K14. -/
theorem test_tdsCalibrate :
    see (·.tdsProbe) (step (chunk 0x53 2 1 0 0x78 0xCE (ask [] [] [0x40000000] { sT with tdsTemp := .b32 0x41D80000 }))) =
      some (.b32 0x40000000) := by decide
/-- K17. -/
theorem test_tdsCalibrate_seventy :
    see (·.tdsProbe) (exec (.tdsCalibrate 70) (ask [] [] [0x3F800000] sT)) = some (.b32 0x40000000) := by decide
/-- K19. -/
theorem test_tdsReset :
    see (fun t => (t.tdsProbe, t.tdsTemp)) (exec (.tdsReset 0) { sT with tdsProbe := .b32 0x40000000, tdsTemp := .b32 0x41D80000 }) =
      some (.b32 0x3F800000, .b32 0x41D80000) := by decide
/-- K20. -/
theorem test_tdsSetMode : nextState (step (chunk 0x53 2 5 0 1 0x5B sT)) =
    some { sT with rxBuf := #v[0x53, 2, 5, 0, 1, 0x5B] } := by decide
/-- Q4's frame bytes: 69 = 0x0045, checksum by hand. -/
theorem test_tlmPh : see (·.tx) (exec (.tlmPh 69) sT) = some [0x53, 0x01, 0x00, 0x45, 0x99] := by decide

/-! ### The events (sections 2.5 and 2.6 of the vectors) -/

/-- T10, for the bytes sent and the order of the samples. -/
theorem test_tick :
    see (fun t => (t.tx, t.rawLog))
        (step (ask [0x41AC0000] [0x3FC00000] [0x40000000]
          { sT with tdsProbe := .b32 0x40000000, tdsTemp := .b32 0x41D80000, events := [.tick] })) =
      some ([0x53, 0, 0, 0xD7, 0x2A, 0x53, 1, 0, 0x34, 0x88, 0x53, 2, 0, 0x78, 0xCD], [.temp, .ph, .tds]) := by decide +kernel
/-- T12. -/
theorem test_tick_no_sensor : nextState (step { sNone with events := [.tick] }) = some sNone := by decide
/-- F1. -/
theorem test_checksum_drop :
    nextState (step (chunk 0x53 1 0 0 0 0x55 { sT with phZeroOffset := .b32 0x3F000000 })) =
      some { sT with phZeroOffset := .b32 0x3F000000, rxBuf := #v[0x53, 1, 0, 0, 0, 0x55] } := by decide
/-- T9: an absent sensor is not sampled. -/
theorem test_absent_sensor : see (·.rawLog) (step (chunk 0x53 1 1 0 0 0x55 sNone)) = some [] := by decide
/-- R137. -/
theorem test_setTemp : see (·.tdsTemp) (step { sT with events := [.setTemp (.b32 0x41D80000)] }) = some (.b32 0x41D80000) := by decide
/-- R210. -/
theorem test_hwReset :
    see (fun t => (t.rxCnt, t.tx, t.sensor.temp))
        (step { window .mean [0x40800000, 0x40800000] 1 0x41000000 with rxCnt := 3, tx := [0x53], events := [.hwReset] }) =
      some (0, [0x53], { value := .b32 0, buf := [.b32 0, .b32 0], cur := 0 }) := by decide
/-- A table word laid to run next runs: the row `PH.SETMODE` with argument 1. -/
theorem test_withFetchWord : see (·.phMode) (step (sT.withFetchWord 48 0x53010500015A)) = some .advanced := by decide
/-- A telemetry word laid to run next is the frame the tick sends. -/
theorem test_withFetchWord_telemetry :
    see (·.tx) (step (sT.withFetchWord 40 0x530212349B)) = some [0x53, 0x02, 0x12, 0x34, 0x9B] := by decide +kernel

/-! ### Witnesses: values that meet a statement's hypotheses together, at the ends of each clause's range -/

theorem reset_invariant : BlockInv State.reset = true := by decide

theorem witness_ChecksumIsTheSumModulo256 : ([0x53, 0x01] : List Byte).Perm [0x01, 0x53] := by decide

theorem witness_EncodedFramesDecodeBack :
    dec6 0x53 [0x53, 0x02, 0x01, 0x1B, 0x9E, 0x0F] = .frame { kind := 2, command := 1, argHi := 0x1B, argLo := 0x9E } ∧
    dec5 0x53 [0x53, 0x01, 0x00, 0x46, 0x9A] = .frame { kind := 1, valueHi := 0, valueLo := 0x46 } := by decide

theorem witness_DecoderReportsTheFirstFailingTest :
    ([] : List Byte).length ≠ 6 ∧ ([0x53, 0, 0, 0, 0, 0x53, 0] : List Byte).length ≠ 6 ∧
    (0x54 : Byte) ≠ 0x53 ∧ (0x10 : Byte) ≠ 0x53 + 0x02 + 0x01 + 0x1B + 0x9E ∧
    (0x0F : Byte) = 0x53 + 0x02 + 0x01 + 0x1B + 0x9E ∧
    ([0x53, 0, 0, 0, 0, 0x53] : List Byte).length ≠ 5 ∧ (0x9B : Byte) ≠ 0x53 + 0x01 + 0x00 + 0x46 ∧
    (0x9A : Byte) = 0x53 + 0x01 + 0x00 + 0x46 := by decide

theorem witness_ChecksumDetectsOneAlteredByte :
    let f : List Byte := [0x53, 0x01, 0x00, 0x00, 0x00, 0x54]
    let g : List Byte := [0x53, 0x01, 0x00, 0x46, 0x9A]
    (validFrame 0x53 6 f = true ∧ f[5]? ≠ some 0xFF ∧ f[0]? ≠ some 0xFF ∧ f[1]? ≠ some 0xFF ∧ f[4]? ≠ some 0xFF) ∧
    (validFrame 0x53 5 g = true ∧ g[4]? ≠ some 0xFF ∧ g[0]? ≠ some 0xFF ∧ g[1]? ≠ some 0xFF ∧ g[3]? ≠ some 0xFF) ∧
    ([0x01, 0x00, 0x46] : List Byte).Perm [0x46, 0x00, 0x01] ∧ validFrame 0x53 5 (0x53 :: [0x01, 0x00, 0x46] ++ [0x9A]) = true := by
  decide

theorem witness_DecodeOfEncodeIsTheInstruction :
    Codes.default.wellFormed = true ∧ (Instr.phSetMode 0xFFFF).wellFormed = true := by decide

theorem witness_EncodeOfDecodeIsTheBytes :
    decode Codes.default [0x53, 0x01, 0x05, 0x00, 0x01, 0x5A] = .instr (.phSetMode 1) ∧
    decode Codes.default [0x53, 0x01, 0x00, 0x46, 0x9A] = .instr (.tlmPh 70) := by decide

theorem witness_StepRunsTheDecodedCommand :
    let s := chunk 0x53 1 0 0 0 0x54 sT
    s.cfg.legal = true ∧ s.events = .rxByte 0x54 :: [] ∧ s.rxCnt = 5 ∧
    decode s.cfg.codes (s.rxBuf.set 5 0x54).toList = .instr (.phReset 0) := by decide

/-- The first and the fifth byte of a chunk, and a sixth byte that completes a valid and an invalid one. -/
theorem witness_ReceivedByteFillsTheChunk :
    let s : State := { sT with events := [.rxByte 0x53] }
    let g := chunk 0x53 1 0 0 0 0x54 sT
    let e := chunk 0x53 1 0 0 0 0x55 sT
    (s.cfg.legal = true ∧ s.events = [.rxByte 0x53] ∧ s.rxCnt.val < 5 ∧ (4 : Fin 6).val < 5) ∧
    (g.cfg.legal = true ∧ g.events = [.rxByte 0x54] ∧ g.rxCnt = 5 ∧
      dec6 g.cfg.codes.pfx (g.rxBuf.set 5 0x54).toList = .frame { kind := 1, command := 0, argHi := 0, argLo := 0 }) ∧
    (e.cfg.legal = true ∧ e.events = [.rxByte 0x55] ∧ e.rxCnt = 5 ∧
      dec6 e.cfg.codes.pfx (e.rxBuf.set 5 0x55).toList = .error .checksumMismatch) := by decide

theorem witness_InvalidChunkIsDropped :
    let e := chunk 0x53 1 0 0 0 0x55 sT
    e.cfg.legal = true ∧ e.events = [.rxByte 0x55] ∧ e.rxCnt = 5 ∧
    validFrame e.cfg.codes.pfx 6 (e.rxBuf.set 5 0x55).toList = false := by decide

theorem witness_DispatchSelectsTheMatchingCommand :
    (sT.cfg.codes.wellFormed = true ∧ sT.cfg.codes.kindCode .ph = 0x01 ∧ sT.cfg.codes.cmdCode .setMode = 0x05 ∧
      (sT.cfg.sensor.get .ph).present = true) ∧
    (sNone.cfg.codes.wellFormed = true ∧ (sNone.cfg.sensor.get .ph).present = false) ∧
    (sT.cfg.codes.kindOf 0x03 = none ∧ sT.cfg.codes.commandOf 0x06 = none) := by decide

theorem witness_DispatchSelectsTheMatchingCommand_kind :
    ∀ k : Kind, sNone.cfg.codes.kindCode k = 0x01 → (sNone.cfg.sensor.get k).present = false := by
  intro k _
  cases k <;> decide

theorem witness_DispatchSelectsTheMatchingCommand_command : ∀ m : Command, sT.cfg.codes.cmdCode m ≠ 0x06 := by
  intro m
  cases m <;> decide

theorem witness_UnassignedFrameHasNoEffect :
    let s := chunk 0x53 0x07 0x09 0 0 0x63 sT
    s.cfg.legal = true ∧ s.events = [.rxByte 0x63] ∧ s.rxCnt = 5 ∧
    dec6 s.cfg.codes.pfx (s.rxBuf.set 5 0x63).toList = .frame { kind := 7, command := 9, argHi := 0, argLo := 0 } ∧
    s.cfg.codes.kindOf 7 = none ∧ s.cfg.codes.commandOf 9 = none := by decide

theorem witness_UnassignedFrameHasNoEffect_kind :
    ∀ k : Kind, sT.cfg.codes.kindCode k = 7 → (sT.cfg.sensor.get k).present = false := by
  intro k
  cases k <;> decide

theorem witness_UnassignedFrameHasNoEffect_command : ∀ m : Command, sT.cfg.codes.cmdCode m ≠ 9 := by
  intro m
  cases m <;> decide

theorem witness_CommandOfAbsentSensorChangesNothing : (sNone.cfg.sensor.get .ph).present = false := by decide

/-- PH present, in basic and in advanced mode: the hypotheses of PhResetRestoresTheCurrentMode, PhCalibrateSetsTheOffset
and PhReferenceCommandsRecordTheVoltage. -/
theorem witness_phPresent :
    (sT.cfg.sensor.ph.present = true ∧ sT.phMode = .basic) ∧
    (sAdv.cfg.sensor.ph.present = true ∧ sAdv.phMode = .advanced) := by decide

theorem witness_PhSetModeReadsTheArgument :
    sT.cfg.sensor.ph.present = true ∧ (0 : Half).toNat = 0 ∧ (1 : Half).toNat = 1 ∧ 2 ≤ (2 : Half).toNat ∧
    2 ≤ (0xFFFF : Half).toNat := by decide

/-- TDS present: the hypothesis of TdsResetRestoresTheProbe and TdsCalibrateSolvesForTheProbe. -/
theorem witness_tdsPresent : sT.cfg.sensor.tds.present = true := by decide

theorem witness_TelemetryFrameAppendsItsBytes :
    (sT.cfg.sensor.get .tds).present = true ∧ (sNone.cfg.sensor.get .tds).present = false := by decide

theorem witness_CommandIsIsolated : ∃ t, exec (Instr.ofCommand .ph .calibrate 0) sT = .next t := ⟨_, rfl⟩

theorem witness_CommandsAreIdempotent :
    let s := ask [] [0x3FC00000, 0x3FC00000] [] sT
    ∃ t u, s.rawAns.get .ph = .b32 0x3FC00000 :: .b32 0x3FC00000 :: [] ∧
      exec (Instr.ofCommand .ph .calibrate 0) s = .next t ∧ exec (Instr.ofCommand .ph .calibrate 0) t = .next u :=
  ⟨_, _, rfl, rfl, rfl⟩

/-- Both ways a `RAW(s)` request is answered: by the script, and, as after reset, by a free value. -/
theorem witness_rawAnswered :
    rawAnswered .ph (.b32 0x3FC00000) (ask [] [0x3FC00000] [] sT) ((ask [] [0x3FC00000] [] sT).afterRaw .ph) ∧
    rawAnswered .ph (.b32 (Config.rawAnswer .ph 0).toB32) State.reset (State.reset.afterRaw .ph) :=
  ⟨.inl ⟨[], rfl, rfl⟩, .inr ⟨rfl, rfl, rfl⟩⟩

theorem witness_UpdateStoresTheModelsValue : sT.phMode = .basic ∧ sAdv.phMode = .advanced := by decide

theorem witness_ReadPassesTheValueThroughTheFilter :
    (sT.cfg.sensor.get .temp).filter = .none ∧ ((window .mean [0, 0] 0 0).cfg.sensor.get .temp).filter ≠ .none := by
  decide

/-- Windows of binary32 numbers without and with a NaN, and one of exact numbers. -/
theorem witness_PushOverwritesOneSlot :
    let c := (window .median [0, 0, 0] 2 0).cfg
    let w : List Number := ((window .median [0, 0, 0] 2 0).sensor.get .temp).buf.set 2 (.b32 0x3F800000)
    ((window .mean [0, 0] 1 0).cfg.sensor.get .temp).filter = .mean ∧ (c.sensor.get .temp).filter = .median ∧
    orders (cfgNum c) w = true ∧ orders (cfgNum c) [.b32 0x7FC00000] = false ∧ c.num = .binary32 ∧
    w.any (fun y => fIsNaN y.toB32) = false ∧ cfgExact.num = .exact := by decide

/-- A fresh window of two, with one push and with two. -/
theorem witness_WindowHoldsTheLastPushes :
    let s := window .mean [0, 0] 0 0
    (s.cfg.sensor.get .temp).filter ≠ .none ∧ 1 ≤ (s.cfg.sensor.get .temp).cap ∧
    s.sensor.get .temp =
      { value := (s.sensor.get .temp).value, buf := List.replicate (s.cfg.sensor.get .temp).cap (.b32 0), cur := 0 } ∧
    ([.b32 0x3F800000] : List Number).length < (s.cfg.sensor.get .temp).cap ∧
    (s.cfg.sensor.get .temp).cap ≤ ([.b32 0x3F800000, .b32 0x40000000] : List Number).length := by decide

theorem witness_SortIsTheAscendingOrder :
    ([0x40000000, 0x3F800000] : List Num32).any fIsNaN = false ∧
    ([0x3F800000, 0x40000000] : List Num32).Perm [0x40000000, 0x3F800000] ∧
    sortAsc binary32 [0x40000000, 0x3F800000] = [0x3F800000, 0x40000000] ∧ fLt 0x40000000 0x3F800000 = false := by decide

theorem witness_SortIsTheAscendingOrder_ascending :
    ∀ (j : Nat) (x y : Num32), ([0x3F800000, 0x40000000] : List Num32)[j]? = some x →
      ([0x3F800000, 0x40000000] : List Num32)[j + 1]? = some y → fLt y x = false := by
  intro j x y hx hy
  cases j with
  | zero =>
    cases hx
    cases hy
    decide
  | succ j => cases hy

/-- The clauses over any record: `<f` orders this window, the upside-down order meets both laws, and so has an ascending
permutation. -/
theorem witness_SortIsTheAscendingOrder_order :
    orders reversed [0, 1] = true ∧ (∀ x y, reversed.lt x y = true → reversed.lt y x = false) ∧
    (∀ x y z, reversed.lt x z = true → reversed.lt x y = true ∨ reversed.lt y z = true) ∧
    sortAsc reversed [0, 1] = [1, 0] ∧ reversed.lt 0 1 = false := by
  refine ⟨by decide, fun x y h => ?_, fun x y z h => ?_, by decide, by decide⟩
  · simp only [reversed, decide_eq_true_eq, decide_eq_false_iff_not, not_lt] at *
    exact h.le
  · simp only [reversed, decide_eq_true_eq] at *
    exact (lt_or_ge y x).imp_right fun e => lt_of_lt_of_le h e

/-- A window with both zeros, which the statement covers too. -/
theorem witness_MedianTakesTheRulesElements_zeros :
    let w : List Num32 := [0xBF800000, 0xBF800000, 0x00000000, 0x80000000]
    w.length = 4 ∧ w.any fIsNaN = false ∧ bothZeros w = true := by decide

theorem witness_MedianTakesTheRulesElements :
    let odd : List Num32 := [0x40000000]
    let even : List Num32 := [0x3F800000, 0x40000000, 0x40400000, 0x40800000]
    (odd.length = 1 ∧ odd.any fIsNaN = false ∧ bothZeros odd = false ∧ 1 % 2 = 1) ∧
    (even.length = 4 ∧ even.any fIsNaN = false ∧ bothZeros even = false ∧ 4 % 2 = 0 ∧ 4 ≤ 4 ∧
      (sortAsc binary32 even)[4 / 2]? = some 0x40400000 ∧ (sortAsc binary32 even)[4 / 2 + 1]? = some 0x40800000) := by
  decide

/-- Two, three and four copies of the new level: the three cases. -/
theorem witness_EvenMedianIsBiasedUpward :
    (0 : ℚ) < 1 ∧ 0 ≤ 8 ∧ 2 ≤ 8 ∧ 3 ≤ 8 ∧ 8 ≤ 8 ∧
    (List.replicate 3 (1 : ℚ) ++ List.replicate (8 - 3) 0).Perm (List.replicate 3 1 ++ List.replicate (8 - 3) 0) :=
  ⟨by norm_num, by decide, by decide, by decide, by decide, List.Perm.refl _⟩

theorem witness_MeanOfANaNIsANaN : ([0, 0x7FC00000] : List Num32).any fIsNaN = true := by decide

theorem witness_ComparisonIsTheOrderOfValues :
    (fIsFinite 0x80000000 = true ∧ fIsFinite 0x7F7FFFFF = true) ∧ fIsNaN 0x7FC00000 = true := by decide

theorem witness_ArithmeticRoundsToNearest :
    fIsFinite 0x3F800000 = true ∧ fIsFinite 0x40400000 = true ∧ fIsFinite 0x7F7FFFFF = true ∧
    fIsFinite (fAdd 0x3F800000 0x40400000) = true ∧ fIsFinite (fSub 0x3F800000 0x40400000) = true ∧
    fIsFinite (fMul 0x3F800000 0x40400000) = true ∧ fIsZero 0x40400000 = false ∧
    fIsFinite (fDiv 0x3F800000 0x40400000) = true := by decide

theorem witness_Q10TruncatesAndSaturates_nan : fIsNaN (fMul 0x7FC00000 (fOfNat 10)) = true :=
  fIsNaN_fNaN .mul 0x7FC00000 (fOfNat 10)

/-- The last clauses: the configuration of the tests, `State.reset`'s, and one over the exact numbers. -/
theorem witness_ArithmeticRoundsToNearest_config :
    (cfgT.num = .binary32 ∧ cfgT.q10 = .ofNum) ∧ (Config.default.num = .binary32 ∧ Config.default.q10 = .ofNum) ∧
    cfgExact.num = .exact ∧ cfgExact.q10 = .ofNum := by decide

/-- Minus zero, the smallest number, the largest tenfold below 65535, and 65535 itself. -/
theorem witness_Q10TruncatesAndSaturates :
    (fIsNaN (fMul 0x80000000 (fOfNat 10)) = false ∧ fLt (fOfNat 0) (fMul 0x80000000 (fOfNat 10)) = false) ∧
    (fLt (fOfNat 0) (fMul 0x00000001 (fOfNat 10)) = true ∧ fLt (fMul 0x00000001 (fOfNat 10)) (fOfNat 65535) = true) ∧
    (fLt (fOfNat 0) (fMul 0x45CCCB33 (fOfNat 10)) = true ∧ fLt (fMul 0x45CCCB33 (fOfNat 10)) (fOfNat 65535) = true) ∧
    (fIsNaN (fMul 0x45CCCC00 (fOfNat 10)) = false ∧ fLt (fMul 0x45CCCC00 (fOfNat 10)) (fOfNat 65535) = false) := by
  decide

theorem witness_CalibrationLawsOverExactNumbers :
    let c : TdsCfg ℚ := { a3 := 1, a2 := 2, a1 := 4, a0 := 0, tempCoeff := 1 / 2, factor := 1 / 2, defProbe := 1 }
    (7 / 2 : ℚ) ≠ 0 ∧ ((1 : ℚ) < 2 ∧ (2 : ℚ) < 3) ∧
    tdsPoly exactNum c 2 ≠ 0 ∧ tdsComp exactNum c 27 ≠ 0 ∧ c.factor ≠ 0 := by
  norm_num [tdsPoly, tdsComp, exactNum]

/-- Both zeros and 4: the ends of the range. -/
theorem witness_PhCalibrationReadsExactlySeven :
    (fIsNaN 0x80000000 = false ∧ fLt 0x80000000 (fOfNat 0) = false ∧ fLt (fOfNat 4) 0x80000000 = false) ∧
    (fIsNaN 0x00000000 = false ∧ fLt 0x00000000 (fOfNat 0) = false ∧ fLt (fOfNat 4) 0x00000000 = false) ∧
    (fIsNaN 0x40800000 = false ∧ fLt 0x40800000 (fOfNat 0) = false ∧ fLt (fOfNat 4) 0x40800000 = false) := by decide

theorem witness_AdvancedPivotReadsExactlySeven :
    fIsFinite 0x40000000 = true ∧
    fIsFinite (modelNum.div modelNum.three (modelNum.sub 0x3F800000 0x40000000)) = true := by decide

theorem witness_CompensationIsOneAtTwentyFive : fIsFinite tdsT.tempCoeff = true := by decide

/-- A tick of a legal block: the hypotheses of TickServesTheSensorsInOrder and TickEmitsOneFramePerPresentSensor. -/
theorem witness_tick :
    let s : State := { sT with events := [.tick] }
    s.cfg.legal = true ∧ s.events = .tick :: [] := by decide

theorem witness_TickReportsTheRawTemperature :
    let s : State := ask [0x41AC0000] [] [] { sT with events := [.tick] }
    s.cfg.legal = true ∧ s.events = .tick :: [] ∧ s.cfg.sensor.temp.present = true ∧
    s.cfg.sensor.temp.filter = .none ∧ s.rawAns.temp = .b32 0x41AC0000 :: [] := by decide

theorem witness_PartialFrameAndTickCommute :
    sT.cfg.legal = true ∧ sT.rxCnt.val < 5 ∧ ({ sT with rxCnt := 4 } : State).rxCnt.val < 5 := by decide

theorem witness_SetTempWritesTheAmbientTemperature :
    let s : State := { sT with events := [.setTemp (.b32 0x41D80000)] }
    let u : State := { sNone with events := [.setTemp (.b32 0x41D80000)] }
    (s.cfg.legal = true ∧ s.events = .setTemp (.b32 0x41D80000) :: [] ∧ s.cfg.sensor.tds.present = true) ∧
    (u.cfg.legal = true ∧ u.events = .setTemp (.b32 0x41D80000) :: [] ∧ u.cfg.sensor.tds.present = false) := by decide

theorem witness_HardwareResetRestoresTableV :
    let s : State := { window .median [0, 0, 0] 1 0 with events := [.hwReset] }
    let u : State := { sNone with events := [.hwReset] }
    (s.cfg.legal = true ∧ s.events = .hwReset :: [] ∧ (s.cfg.sensor.get .temp).present = true ∧
      (s.cfg.sensor.get .temp).filter ≠ .none ∧ (s.cfg.sensor.get .ph).present = true ∧
      (s.cfg.sensor.get .ph).filter = .none ∧ s.cfg.sensor.tds.present = true) ∧
    (u.cfg.legal = true ∧ u.events = .hwReset :: [] ∧ (u.cfg.sensor.get .temp).present = false ∧
      u.cfg.sensor.ph.present = false ∧ u.cfg.sensor.tds.present = false) := by decide

theorem witness_ResetStateHasTheValuesOfTableV : (Config.default.sensor.get .ph).filter ≠ .none := by decide

theorem witness_BlockWaitsForAnEvent : State.reset.cfg.legal = true ∧ State.reset.events = [] := by decide

theorem witness_IllegalConfigurationIsRefused : (State.initial (cfgTemp .median 2)).cfg.legal = false := by decide

theorem witness_LegalBlockNeverStops : sAdv.cfg.legal = true := by decide

theorem witness_InvariantHoldsAtReset :
    cfgT.legal = true ∧ cfgTyped cfgT = true ∧ cfgTyped cfgExact = true ∧ cfgTyped Config.default = true := by decide

theorem witness_EveryStepKeepsTheInvariant :
    let s : State := { sT with events := [.tick] }
    BlockInv s = true ∧ typed s = true ∧ ∃ t, step s = .next t := ⟨by decide, by decide, _, rfl⟩

theorem witness_ConfigurationNeverChanges :
    (∃ t, step { sT with events := [.hwReset] } = .next t) ∧
    ∃ t, stepUnder cfgNone { sT with events := [.hwReset] } = .next t := ⟨⟨_, rfl⟩, _, rfl⟩

theorem witness_TransmitStreamIsNeverRead : ∃ t, step { sT with events := [.tick] } = .next t := ⟨_, rfl⟩

theorem witness_TransmitStreamGrowsOnlyByTicks :
    (({ sT with events := [.tick] } : State).events.head? = some .tick ∧ ∃ t, step { sT with events := [.tick] } = .next t) ∧
    (({ sT with events := [.hwReset] } : State).events.head? ≠ some .tick) := ⟨⟨by decide, _, rfl⟩, by decide⟩

theorem witness_OnlyCommandsChangeTheCalibration :
    let s := chunk 0x53 1 5 0 1 0x5A sT
    ∃ t, step s = .next t ∧ calibration t ≠ calibration s := ⟨_, rfl, by decide⟩

theorem witness_AbsentSensorIsNeverTouched :
    (∃ t, step { sNone with events := [.tick] } = .next t) ∧ (sNone.cfg.sensor.get .tds).present = false :=
  ⟨⟨_, rfl⟩, by decide⟩

end Sys2Proof.Tests
end

section
/-! PROOFS. The configuration is fixed at construction: no operation, no event and no step writes it (rules R6, R43). -/

namespace Sys2Proof.Machine

open Sys2Proof

/-- `HWRESET`'s share for one sensor keeps the configuration. -/
@[simp] theorem resetSensor_cfg (k : Kind) (s : State) : (resetSensor k s).cfg = s.cfg := by
  rw [resetSensor_eq]

/-- `HWRESET`'s share for the PH registers keeps the configuration. -/
@[simp] theorem resetPh_cfg (s : State) : (resetPh s).cfg = s.cfg :=
  onPresent_keeps (·.cfg) (by simp) s

/-- `HWRESET`'s share for the TDS registers keeps the configuration. -/
@[simp] theorem resetTds_cfg (s : State) : (resetTds s).cfg = s.cfg :=
  onPresent_keeps (·.cfg) (by simp) s

/-- `HWRESET` keeps the configuration (rule R210). -/
@[simp] theorem hwReset_cfg (s : State) : (hwReset s).cfg = s.cfg := by
  simp [hwReset]

/-- `SETTEMP` keeps the configuration (rule R137). -/
@[simp] theorem setTemp_cfg (x : Number) (s : State) : (setTemp x s).cfg = s.cfg :=
  onPresent_keeps (·.cfg) (by simp) s

/-- One sensor's share of a tick keeps the configuration. -/
theorem tickSensor_keeps_cfg {k : Kind} {s t : State} (h : tickSensor k s = .next t) : t.cfg = s.cfg := by
  obtain ⟨-, rfl⟩ | ⟨-, ans, v, b, c, n, q, rfl, -, -⟩ := tickSensor_cases h <;> rfl

/-- A tick keeps the configuration (rule R175). -/
theorem tick_keeps_cfg {s t : State} (h : tick s = .next t) : t.cfg = s.cfg := by
  obtain ⟨u, v, hTemp, hPh, hTds⟩ := tick_cases h
  calc
    t.cfg = v.cfg := tickSensor_keeps_cfg hTds
    _ = u.cfg := tickSensor_keeps_cfg hPh
    _ = s.cfg := tickSensor_keeps_cfg hTemp

/-- No event changes the configuration. -/
theorem runEvent_keeps_cfg {e : Event} {s t : State} (h : runEvent e s = .next t) : t.cfg = s.cfg := by
  cases e with
  | rxByte b =>
    obtain ⟨hcfg, -⟩ := rxByte_keeps h
    exact hcfg
  | tick => exact tick_keeps_cfg h
  | setTemp x =>
    cases h
    exact setTemp_cfg x s
  | hwReset =>
    cases h
    exact hwReset_cfg s

/-- No step changes the configuration, whether it waits or runs an event. -/
theorem step_keeps_cfg {s t : State} (h : step s = .next t) : t.cfg = s.cfg := by
  obtain ⟨-, ⟨-, rfl⟩ | ⟨e, es, -, hrun⟩⟩ := step_cases h
  · rfl
  · exact (runEvent_keeps_cfg hrun).trans (State.setEvents_cfg s es)

/-- A step under a configuration given as an argument is the step of the state that holds it (log 8). -/
theorem stepUnder_eq_step (c : Cfg) (s : State) : stepUnder c s = step { s with cfg := c } := rfl

/-- After a step under a configuration the state holds that configuration. -/
theorem stepUnder_cfg {c : Cfg} {s t : State} (h : stepUnder c s = .next t) : t.cfg = c := by
  rw [stepUnder_eq_step] at h
  exact step_keeps_cfg h

/-- Settles O56: every event keeps the configuration, so a run under a configuration is a run of the states that hold it. -/
theorem configurationNeverChanges : Obligations.ConfigurationNeverChanges := by
  unfold Obligations.ConfigurationNeverChanges
  refine ⟨fun s t h => step_keeps_cfg h, fun c s t h => ?_⟩
  have hc : t.cfg = c := stepUnder_cfg h
  exact ⟨hc, by rw [step, hc]⟩

end Sys2Proof.Machine
end

section
/-! PROOFS. What each event writes, said once for the invariants of the whole machine: the effect of a command frame, the
frame of `HWRESET`, and the induction over everything an event can do. -/

namespace Sys2Proof.Machine

open Sys2Proof

/-- What the command of a (kind, command) pair writes where its sensor is present (rules R140 to R157). -/
def commandEffect (k : Kind) (m : Command) (arg : Half) (s : State) : State :=
  match k, m with
  | .ph, .reset => restorePh s
  | .ph, .calibrate =>
    (s.afterRaw .ph).setPhZeroOffset (phOffsetFor (cfgModelNum s.cfg) s.cfg.ph.k (s.rawValue .ph))
  | .ph, .calLow => (s.afterRaw .ph).setPhLow (s.rawValue .ph)
  | .ph, .calMid => (s.afterRaw .ph).setPhMid (s.rawValue .ph)
  | .ph, .calHigh => (s.afterRaw .ph).setPhHigh (s.rawValue .ph)
  | .ph, .setMode => s.setPhMode (modeAfter arg s.phMode)
  | .tds, .reset => s.setTdsProbe s.cfg.tds.defProbe
  | .tds, .calibrate =>
    (s.afterRaw .tds).setTdsProbe (tdsProbeFor (cfgModelNum s.cfg) s.cfg.tds s.tdsTemp arg (s.rawValue .tds))
  | .tds, .calLow | .tds, .calMid | .tds, .calHigh | .tds, .setMode | .temp, _ => s

/-- A command frame has the effect of its pair where its sensor is present, and none elsewhere (rules R139, R174). -/
theorem exec_ofCommand (k : Kind) (m : Command) (arg : Half) (s : State) :
    exec (Instr.ofCommand k m arg) s = .next (onPresent k (commandEffect k m arg) s) := by
  cases k <;> cases m <;> rfl

/-- All that a received byte can do: it is stored, the count moves on, and a command may take effect (rule R99). -/
theorem rxByte_effect {b : Byte} {s t : State} (h : rxByte b s = .next t) :
    ∃ n, t = (s.storeRx b).setRxCnt n ∨
      ∃ k m arg, t = onPresent k (commandEffect k m arg) ((s.storeRx b).setRxCnt n) := by
  obtain ⟨-, e⟩ | ⟨-, ⟨-, -, e⟩ | ⟨f, -, e⟩⟩ := rxByte_cases b s <;> rw [e] at h
  · cases h
    exact ⟨_, .inl rfl⟩
  · cases h
    exact ⟨_, .inl rfl⟩
  · refine ⟨0, ?_⟩
    obtain ⟨-, e⟩ | ⟨k, m, -, -, e⟩ := dispatch_cases f.kind f.command (frameArg f) ((s.storeRx b).setRxCnt 0) <;>
      rw [e] at h
    · cases h
      exact .inl rfl
    · rw [exec_ofCommand] at h
      cases h
      exact .inr ⟨k, m, _, rfl⟩

/-- What every elementary effect of an event keeps, the event keeps. -/
theorem runEvent_preserves {P : State → Prop} {e : Event}
    (store : ∀ s b n, P s → P ((s.storeRx b).setRxCnt n))
    (command : ∀ s k m arg, P s → P (onPresent k (commandEffect k m arg) s))
    (share : ∀ {s t k}, P s → tickSensor k s = .next t → P t)
    (ambient : ∀ s x, e = .setTemp x → P s → P (setTemp x s))
    (reset : ∀ s, P s → P (hwReset s)) {s t : State} (hs : P s) (h : runEvent e s = .next t) : P t := by
  cases e with
  | rxByte b =>
    obtain ⟨n, rfl | ⟨k, m, arg, rfl⟩⟩ := rxByte_effect h
    · exact store s b n hs
    · exact command _ k m arg (store s b n hs)
  | tick =>
    obtain ⟨u, v, hTemp, hPh, hTds⟩ := tick_cases h
    exact share (share (share hs hTemp) hPh) hTds
  | setTemp x =>
    cases h
    exact ambient s x rfl hs
  | hwReset =>
    cases h
    exact reset s hs

/-- A command writes neither the sensors nor `tx`, nor the configuration (rule R158). -/
theorem onPresent_commandEffect_keeps (k : Kind) (m : Command) (arg : Half) (s : State) :
    (onPresent k (commandEffect k m arg) s).cfg = s.cfg ∧ (onPresent k (commandEffect k m arg) s).sensor = s.sensor ∧
      (onPresent k (commandEffect k m arg) s).tx = s.tx := by
  obtain ⟨hcfg, -, -, htx, hsensor, -, -⟩ := exec_ofCommand_keeps (exec_ofCommand k m arg s)
  exact ⟨hcfg, hsensor, htx⟩

@[simp] theorem resetPh_sensor (s : State) : (resetPh s).sensor = s.sensor := onPresent_keeps (·.sensor) (by simp) s
@[simp] theorem resetTds_sensor (s : State) : (resetTds s).sensor = s.sensor := onPresent_keeps (·.sensor) (by simp) s
@[simp] theorem setTemp_sensor (x : Number) (s : State) : (setTemp x s).sensor = s.sensor :=
  onPresent_keeps (·.sensor) (by simp) s

@[simp] theorem resetSensor_tx (k : Kind) (s : State) : (resetSensor k s).tx = s.tx := by rw [resetSensor_eq]
@[simp] theorem resetPh_tx (s : State) : (resetPh s).tx = s.tx := onPresent_keeps (·.tx) (by simp) s
@[simp] theorem resetTds_tx (s : State) : (resetTds s).tx = s.tx := onPresent_keeps (·.tx) (by simp) s
@[simp] theorem setTemp_tx (x : Number) (s : State) : (setTemp x s).tx = s.tx := onPresent_keeps (·.tx) (by simp) s

/-- `HWRESET` removes no byte of `tx` (rule R210). -/
@[simp] theorem hwReset_tx (s : State) : (hwReset s).tx = s.tx := by simp [hwReset]

end Sys2Proof.Machine
end

section
/-! PROOFS. The invariant of the block holds at reset and every step keeps it: a legal configuration, full windows with
their cursors in range, and a transmit stream of whole frames (rules R27, R179, R212). -/

namespace Sys2Proof.Machine

open Sys2Proof

/-- A frame after a stream of whole frames is a stream of whole frames (rule R179). -/
theorem framed_append_frame {pfx : Byte} {bs : List Byte} (h : framed pfx bs = true) (k a b : Byte) :
    framed pfx (bs ++ enc5 pfx k a b) = true := by
  fun_induction framed pfx bs with
  | case1 => exact Bool.and_eq_true_iff.2 ⟨validFrame_enc5 pfx k a b, rfl⟩
  | case2 b0 b1 b2 b3 b4 rest ih =>
    obtain ⟨hframe, hrest⟩ := Bool.and_eq_true_iff.1 h
    exact Bool.and_eq_true_iff.2 ⟨hframe, ih hrest⟩
  | case3 => cases h

/-- A condition on every kind is one on each of the three. -/
theorem forall_kind {q : Kind → Prop} : (∀ k, q k) ↔ q .temp ∧ q .ph ∧ q .tds :=
  ⟨fun h => ⟨h .temp, h .ph, h .tds⟩, fun ⟨hTemp, hPh, hTds⟩ k => by cases k <;> assumption⟩

/-- A full window with its cursor in range, as a condition on a present sensor with a filter. -/
theorem windowOk_iff {k : Kind} {s : State} :
    windowOk k s = true ↔
      (s.present k = true → s.filter k ≠ .none → (s.regs k).buf.length = s.cap k ∧ (s.regs k).cur < s.cap k) := by
  cases hp : s.present k <;> by_cases hf : s.filter k = .none <;> simp [windowOk, hp, hf]

/-- A window is judged by the configuration and the sensors alone. -/
theorem windowOk_congr {s t : State} (hcfg : t.cfg = s.cfg) (hsensor : t.sensor = s.sensor) (k : Kind) :
    windowOk k t = windowOk k s := by
  rw [Bool.eq_iff_iff, windowOk_iff, windowOk_iff]
  simp only [State.present, State.filter, State.regs, State.cap, hcfg, hsensor]

/-- The invariant, its three windows as one condition on every kind. -/
theorem blockInv_iff {s : State} :
    BlockInv s = true ↔
      s.cfg.legal = true ∧ (∀ k, windowOk k s = true) ∧ framed s.cfg.codes.pfx s.tx = true := by
  simp only [BlockInv, Bool.and_eq_true, forall_kind, and_assoc]

/-- The invariant does not look beyond the configuration, the sensors and `tx`. -/
theorem blockInv_congr {s t : State} (hcfg : t.cfg = s.cfg) (hsensor : t.sensor = s.sensor) (htx : t.tx = s.tx) :
    BlockInv t = BlockInv s := by
  simp only [BlockInv, windowOk_congr hcfg hsensor, hcfg, htx]

/-- In a legal configuration the window of a present sensor with a filter has a slot (rules R116, R212). -/
theorem legal_cap_pos {c : Cfg} (h : c.legal = true) {k : Kind} (hp : (c.sensor.get k).present = true)
    (hf : (c.sensor.get k).filter ≠ .none) : 0 < (c.sensor.get k).cap := by
  have hw : (c.sensor.get k).wellFormed = true := by
    simp only [Cfg.legal, Bool.and_eq_true] at h
    obtain ⟨⟨⟨-, hTemp⟩, hPh⟩, hTds⟩ := h
    cases k <;> assumption
  unfold SensorCfg.wellFormed at hw
  cases hs : (c.sensor.get k).filter with
  | none => exact absurd hs hf
  | mean =>
    simp only [hp, hs, decide_eq_true_eq] at hw
    exact hw
  | median =>
    simp only [hp, hs, Bool.and_eq_true, decide_eq_true_eq] at hw
    exact hw.1

/-- `HWRESET`'s share for one sensor leaves every window full: it refills its own and touches no other. -/
theorem windowOk_resetSensor {j k : Kind} {s : State} (hl : s.cfg.legal = true) (h : windowOk j s = true) :
    windowOk j (resetSensor k s) = true := by
  rw [windowOk_iff] at h ⊢
  intro hp hf
  rw [resetSensor_eq] at hp hf ⊢
  by_cases hjk : j = k
  · subst hjk
    have hcap : 0 < s.cap j := legal_cap_pos hl hp hf
    have hp' : s.present j = true := hp
    have hf' : s.filter j ≠ .none := hf
    simpa [State.regs, State.cap, hp', hf'] using hcap
  · simpa [State.regs, State.cap, hjk] using h hp hf

/-- `HWRESET` keeps the invariant. -/
theorem blockInv_hwReset {s : State} (h : BlockInv s = true) : BlockInv (hwReset s) = true := by
  obtain ⟨hl, hw, hf⟩ := blockInv_iff.1 h
  refine blockInv_iff.2 ⟨by simpa using hl, fun k => ?_, by simpa using hf⟩
  have hstart : windowOk k (s.setRxCnt 0) = true := hw k
  have hshares : windowOk k (resetSensor .tds (resetSensor .ph (resetSensor .temp (s.setRxCnt 0)))) = true :=
    windowOk_resetSensor (by simpa using hl)
      (windowOk_resetSensor (by simpa using hl) (windowOk_resetSensor (by simpa using hl) hstart))
  rw [← hshares]
  exact windowOk_congr (by simp [hwReset]) (by simp [hwReset]) k

/-- One sensor's share of a tick keeps the invariant: the window keeps its length, the cursor moves on inside it, and one
whole frame is emitted. -/
theorem blockInv_tickSensor {k : Kind} {s t : State} (h : BlockInv s = true) (ht : tickSensor k s = .next t) :
    BlockInv t = true := by
  obtain ⟨-, rfl⟩ | ⟨-, ans, v, b, c, n, q, rfl, hlen, hcur⟩ := tickSensor_cases ht
  · exact h
  obtain ⟨hl, hw, hf⟩ := blockInv_iff.1 h
  refine blockInv_iff.2 ⟨hl, fun j => windowOk_iff.2 fun hp hfilter => ?_, framed_append_frame hf _ _ _⟩
  obtain ⟨hfull, hrange⟩ := windowOk_iff.1 (hw j) hp hfilter
  by_cases hjk : j = k
  · subst hjk
    have hc : c = nextCursor (s.cap j) (s.regs j).cur := hcur hfilter
    have hlt : nextCursor (s.cap j) (s.regs j).cur < s.cap j := nextCursor_lt (by omega) _
    simpa [State.regs, State.cap, hc] using And.intro (hlen.trans hfull) hlt
  · simpa [State.regs, State.cap, hjk] using And.intro hfull hrange

/-- Every event keeps the invariant. -/
theorem blockInv_runEvent {e : Event} {s t : State} (hs : BlockInv s = true) (h : runEvent e s = .next t) :
    BlockInv t = true := by
  refine runEvent_preserves (P := fun s => BlockInv s = true) (store := fun s b n hs => hs) (command := ?command)
    (share := blockInv_tickSensor) (ambient := ?ambient) (reset := fun _ => blockInv_hwReset) hs h
  case command =>
    intro s k m arg hs
    obtain ⟨hcfg, hsensor, htx⟩ := onPresent_commandEffect_keeps k m arg s
    rwa [blockInv_congr hcfg hsensor htx]
  case ambient =>
    intro s x _ hs
    rwa [blockInv_congr (setTemp_cfg x s) (setTemp_sensor x s) (setTemp_tx x s)]

/-- Every step keeps the invariant. -/
theorem blockInv_step {s t : State} (hs : BlockInv s = true) (h : step s = .next t) : BlockInv t = true := by
  obtain ⟨-, ⟨-, rfl⟩ | ⟨e, es, -, hrun⟩⟩ := step_cases h
  · exact hs
  · exact blockInv_runEvent (s := s.setEvents es) hs hrun

/-- The registers of a sensor after reset, by kind. -/
theorem initial_sensor_get (c : Cfg) (k : Kind) : (State.initial c).sensor.get k = resetRegs (c.sensor.get k) := by
  cases k <;> rfl

/-- The first reset of a legal configuration sets the invariant up. -/
theorem blockInv_initial {c : Cfg} (h : c.legal = true) : BlockInv (State.initial c) = true := by
  refine blockInv_iff.2 ⟨h, fun k => windowOk_iff.2 fun hp hf => ?_, rfl⟩
  have hcap : 0 < (c.sensor.get k).cap := legal_cap_pos h hp hf
  have hwin : resetWindow (c.sensor.get k) = List.replicate (c.sensor.get k).cap (c.sensor.get k).initial := by
    unfold resetWindow
    split
    · exact absurd ‹_› hf
    · rfl
    · rfl
  simp only [State.regs, initial_sensor_get, resetRegs, hwin, List.length_replicate]
  exact ⟨rfl, hcap⟩

end Sys2Proof.Machine
end

section
/-! PROOFS. Every number of the block is of the configured type, at reset and after every step (rule R7). -/

namespace Sys2Proof.Machine

open Sys2Proof

/-- The calibration models answer numbers of the configured type. -/
theorem cfgModelNum_holds (c : Cfg) (a b : Number) :
    c.num.holds ((cfgModelNum c).sub a b) = true ∧ c.num.holds ((cfgModelNum c).mul a b) = true ∧
      c.num.holds ((cfgModelNum c).div a b) = true := by
  unfold cfgModelNum withQ10
  cases c.num <;> cases c.q10 <;> exact ⟨rfl, rfl, rfl⟩

/-- The named constants are numbers of the configured type. -/
theorem cfgNum_holds (c : Cfg) :
    c.num.holds (cfgNum c).zero = true ∧ c.num.holds (cfgNum c).twentyFive = true := by
  unfold cfgNum withQ10
  cases c.num <;> cases c.q10 <;> exact ⟨rfl, rfl⟩

/-- The constants of a typed configuration that `HWRESET` and the reset commands write to registers. -/
theorem cfgTyped_holds {c : Cfg} (h : cfgTyped c = true) :
    (∀ k, c.num.holds (c.sensor.get k).initial = true) ∧ c.num.holds c.ph.defLow = true ∧
      c.num.holds c.ph.defMid = true ∧ c.num.holds c.ph.defHigh = true ∧ c.num.holds c.tds.defProbe = true := by
  simp only [cfgTyped, Bool.and_eq_true, List.all_cons] at h
  obtain ⟨⟨⟨hTemp, hPh⟩, hTds⟩, -, hLow, hMid, hHigh, -, -, -, -, -, -, hProbe, -⟩ := h
  exact ⟨forall_kind.2 ⟨hTemp, hPh, hTds⟩, hLow, hMid, hHigh, hProbe⟩

/-- `typed`, its conditions named. -/
structure NumbersTyped (s : State) : Prop where
  config : cfgTyped s.cfg = true
  regs : ∀ k, (s.sensor.get k).typed s.cfg.num = true
  phZeroOffset : s.cfg.num.holds s.phZeroOffset = true
  phLow : s.cfg.num.holds s.phLow = true
  phMid : s.cfg.num.holds s.phMid = true
  phHigh : s.cfg.num.holds s.phHigh = true
  tdsProbe : s.cfg.num.holds s.tdsProbe = true
  tdsTemp : s.cfg.num.holds s.tdsTemp = true
  answers : ∀ k, (s.rawAns.get k).all s.cfg.num.holds = true
  events : s.events.all (Event.typed s.cfg.num) = true

theorem typed_iff {s : State} : typed s = true ↔ NumbersTyped s := by
  simp only [typed, Bool.and_eq_true, List.all_append, List.all_cons, List.all_nil, and_true]
  constructor
  · intro ⟨⟨⟨⟨⟨⟨hcfg, hTemp⟩, hPh⟩, hTds⟩, hz, hl, hm, hh, hp, ht⟩, ⟨hansTemp, hansPh⟩, hansTds⟩, hev⟩
    exact ⟨hcfg, forall_kind.2 ⟨hTemp, hPh, hTds⟩, hz, hl, hm, hh, hp, ht,
      forall_kind.2 ⟨hansTemp, hansPh, hansTds⟩, hev⟩
  · intro h
    exact ⟨⟨⟨⟨⟨⟨h.config, h.regs .temp⟩, h.regs .ph⟩, h.regs .tds⟩, h.phZeroOffset, h.phLow, h.phMid, h.phHigh,
      h.tdsProbe, h.tdsTemp⟩, ⟨h.answers .temp, h.answers .ph⟩, h.answers .tds⟩, h.events⟩

/-- The registers of a sensor are typed when the stored value and the window are. -/
theorem regsTyped_iff {m : NumSel} {r : SensorRegs} :
    r.typed m = true ↔ m.holds r.value = true ∧ r.buf.all m.holds = true := Bool.and_eq_true_iff

/-- Every model answers a value of the configured type to a sample of that type (rule R170). -/
theorem transform_holds (k : Kind) {r : Number} {s : State} (hr : s.cfg.num.holds r = true) :
    s.cfg.num.holds (transform k r s) = true := by
  have hsub a b := (cfgModelNum_holds s.cfg a b).1
  have hmul a b := (cfgModelNum_holds s.cfg a b).2.1
  cases k with
  | temp => exact hr
  | ph =>
    unfold transform
    cases s.phMode with
    | basic => exact hmul _ _
    | advanced =>
      simp only [xformPhAdv]
      split <;> exact hsub _ _
  | tds => exact hmul _ _

namespace NumbersTyped

variable {s : State}

/-- New registers of one sensor. -/
theorem withRegs (h : NumbersTyped s) {k : Kind} {r : SensorRegs} (hr : r.typed s.cfg.num = true) (n : Nat) :
    NumbersTyped { s with sensor := s.sensor.set k r, free := n } := by
  refine { h with regs := fun j => ?_ }
  by_cases hjk : j = k
  · subst hjk
    simpa using hr
  · simpa [hjk] using h.regs j

/-- The answer of a `RAW(s)` request is typed, scripted or free (log 6). -/
theorem rawValue (h : NumbersTyped s) (k : Kind) : s.cfg.num.holds (s.rawValue k) = true := by
  have hans := h.answers k
  unfold State.rawValue
  split
  · exact NumSel.holds_cast _ _
  · rename_i hk
    rw [hk, List.all_cons, Bool.and_eq_true] at hans
    exact hans.1

/-- A `RAW(s)` request uses up an answer and writes no number. -/
theorem afterRaw (h : NumbersTyped s) (k : Kind) : NumbersTyped (s.afterRaw k) := by
  cases hk : s.rawAns.get k with
  | nil =>
    rw [(State.afterRaw_free hk).2]
    exact { h with }
  | cons v rest =>
    rw [(State.afterRaw_scripted hk).2]
    refine { h with answers := fun j => ?_ }
    have hans := h.answers j
    by_cases hjk : j = k
    · subst hjk
      rw [hk, List.all_cons, Bool.and_eq_true] at hans
      simpa using hans.2
    · simpa [hjk] using hans

/-- An update stores a typed value (rule R170). -/
theorem updateSensor (h : NumbersTyped s) (k : Kind) : NumbersTyped (updateSensor k s) := by
  obtain ⟨-, hbuf⟩ := regsTyped_iff.1 (h.regs k)
  have hnew : SensorRegs.typed (s.afterRaw k).cfg.num
      { s.regs k with value := transform k (s.rawValue k) s } = true := by
    rw [State.afterRaw_cfg]
    exact regsTyped_iff.2 ⟨transform_holds k (h.rawValue k), hbuf⟩
  rw [update_state, ← State.afterRaw_sensor k s]
  exact (h.afterRaw k).withRegs hnew (s.afterRaw k).free

/-- A read pushes the stored value, so it leaves a typed window (rules R110, R171). -/
theorem readSensor (h : NumbersTyped s) (k : Kind) : NumbersTyped (readSensor k s).2 := by
  by_cases hf : s.filter k = .none
  · rwa [read_unfiltered hf]
  · obtain ⟨n, e⟩ := push_state (s.regs k).value hf
    obtain ⟨hvalue, hbuf⟩ := regsTyped_iff.1 (h.regs k)
    rw [read_filtered hf, e]
    have hwindow : (pushSlot (s.regs k).cur (s.regs k).value (s.regs k).buf).all s.cfg.num.holds = true := by
      refine List.all_eq_true.2 fun x hx => ?_
      obtain hx | rfl := List.mem_or_eq_of_mem_set hx
      · exact List.all_eq_true.1 hbuf x hx
      · exact hvalue
    refine h.withRegs ?_ n
    exact regsTyped_iff.2 ⟨hvalue, hwindow⟩

/-- One sensor's share of a tick keeps the numbers typed. -/
theorem tickSensor {k : Kind} {t : State} (h : NumbersTyped s) (ht : tickSensor k s = .next t) : NumbersTyped t := by
  have hread := (h.updateSensor k).readSensor k
  rw [tickSensor_eq] at ht
  split at ht <;> cases ht
  · unfold onPresent
    split
    · rw [emitTelemetry_eq]
      exact { hread with }
    · exact hread
  · exact h

/-- What `f` keeps typed, `onPresent k f` keeps typed. -/
theorem onPresent {k : Kind} {f : State → State} (h : NumbersTyped s) (hf : NumbersTyped (f s)) :
    NumbersTyped (onPresent k f s) := by
  unfold Machine.onPresent
  split
  · exact hf
  · exact h

/-- `PH.RESET` writes defaults of the configuration (rule R146). -/
theorem restorePh (h : NumbersTyped s) : NumbersTyped (restorePh s) := by
  obtain ⟨-, hLow, hMid, hHigh, -⟩ := cfgTyped_holds h.config
  unfold Machine.restorePh
  cases s.phMode with
  | basic => exact { h with phZeroOffset := (cfgNum_holds s.cfg).1 }
  | advanced => exact { h with phLow := hLow, phMid := hMid, phHigh := hHigh }

/-- A command writes a sample, a default, or a result of the calibration arithmetic. -/
theorem commandEffect (h : NumbersTyped s) (k : Kind) (m : Command) (arg : Half) :
    NumbersTyped (commandEffect k m arg s) := by
  have hraw := h.afterRaw k
  have hcfg := State.afterRaw_cfg k s
  have sampled : (s.afterRaw k).cfg.num.holds (s.rawValue k) = true := by
    rw [hcfg]
    exact h.rawValue k
  have computed (a b : Number) : (s.afterRaw k).cfg.num.holds ((cfgModelNum s.cfg).sub a b) = true ∧
      (s.afterRaw k).cfg.num.holds ((cfgModelNum s.cfg).div a b) = true := by
    rw [hcfg]
    obtain ⟨hsub, -, hdiv⟩ := cfgModelNum_holds s.cfg a b
    exact ⟨hsub, hdiv⟩
  obtain ⟨-, -, -, -, hProbe⟩ := cfgTyped_holds h.config
  cases k with
  | temp => exact h
  | ph =>
    cases m with
    | reset => exact h.restorePh
    | calibrate => exact { hraw with phZeroOffset := (computed _ _).1 }
    | calLow => exact { hraw with phLow := sampled }
    | calMid => exact { hraw with phMid := sampled }
    | calHigh => exact { hraw with phHigh := sampled }
    | setMode => exact { h with }
  | tds =>
    cases m with
    | reset => exact { h with tdsProbe := hProbe }
    | calibrate => exact { hraw with tdsProbe := (computed _ _).2 }
    | calLow | calMid | calHigh | setMode => exact h

/-- `HWRESET`'s share for one sensor writes its configured initial value. -/
theorem resetSensor (h : NumbersTyped s) (k : Kind) : NumbersTyped (resetSensor k s) := by
  obtain ⟨hinit, -⟩ := cfgTyped_holds h.config
  obtain ⟨-, hbuf⟩ := regsTyped_iff.1 (h.regs k)
  rw [resetSensor_eq]
  refine h.withRegs ?_ s.free
  split
  · split
    · exact regsTyped_iff.2 ⟨hinit k, hbuf⟩
    · exact regsTyped_iff.2 ⟨hinit k, by simp [hinit k]⟩
  · exact h.regs k

/-- `HWRESET` writes constants of the configuration and of its number type (rule R210). -/
theorem hwReset (h : NumbersTyped s) : NumbersTyped (hwReset s) := by
  have hstart : NumbersTyped (s.setRxCnt 0) := { h with }
  have hsensors := ((hstart.resetSensor .temp).resetSensor .ph).resetSensor .tds
  have hph {u : State} (h : NumbersTyped u) : NumbersTyped (resetPh u) := by
    obtain ⟨-, hLow, hMid, hHigh, -⟩ := cfgTyped_holds h.config
    exact h.onPresent
      { h with phZeroOffset := (cfgNum_holds u.cfg).1, phLow := hLow, phMid := hMid, phHigh := hHigh }
  have htds {u : State} (h : NumbersTyped u) : NumbersTyped (resetTds u) := by
    obtain ⟨-, -, -, -, hProbe⟩ := cfgTyped_holds h.config
    exact h.onPresent { h with tdsProbe := hProbe, tdsTemp := (cfgNum_holds u.cfg).2 }
  exact htds (hph hsensors)

/-- An event that carries no number of another type keeps the numbers typed. -/
theorem runEvent {e : Event} {t : State} (h : NumbersTyped s) (he : e.typed s.cfg.num = true)
    (ht : runEvent e s = .next t) : NumbersTyped t := by
  suffices NumbersTyped t ∧ t.cfg = s.cfg from this.1
  refine runEvent_preserves (P := fun u => NumbersTyped u ∧ u.cfg = s.cfg)
    (store := fun u b n ⟨hu, hc⟩ => ⟨{ hu with }, hc⟩)
    (command := ?command)
    (share := fun ⟨hu, hc⟩ hv => ⟨hu.tickSensor hv, (tickSensor_keeps_cfg hv).trans hc⟩)
    (ambient := ?ambient)
    (reset := fun u ⟨hu, hc⟩ => ⟨hu.hwReset, (hwReset_cfg u).trans hc⟩) ⟨h, rfl⟩ ht
  case command =>
    intro u k m arg ⟨hu, hc⟩
    obtain ⟨hcfg, -⟩ := onPresent_commandEffect_keeps k m arg u
    exact ⟨hu.onPresent (hu.commandEffect k m arg), hcfg.trans hc⟩
  case ambient =>
    intro u x hx ⟨hu, hc⟩
    subst hx
    have hx : u.cfg.num.holds x = true := by
      rw [hc]
      exact he
    exact ⟨hu.onPresent { hu with tdsTemp := hx }, (setTemp_cfg x u).trans hc⟩

/-- Every step keeps the numbers typed. -/
theorem step {t : State} (h : NumbersTyped s) (ht : step s = .next t) : NumbersTyped t := by
  obtain ⟨-, ⟨-, rfl⟩ | ⟨e, es, he, hrun⟩⟩ := step_cases ht
  · exact h
  · have hev := h.events
    rw [he, List.all_cons, Bool.and_eq_true] at hev
    exact runEvent (s := s.setEvents es) { h with events := hev.2 } hev.1 hrun

/-- The first reset of a typed configuration writes constants of the configuration and of its number type (Table V). -/
theorem initial {c : Cfg} (h : cfgTyped c = true) : NumbersTyped (State.initial c) := by
  obtain ⟨hinit, hLow, hMid, hHigh, hProbe⟩ := cfgTyped_holds h
  obtain ⟨hzero, htwentyFive⟩ := cfgNum_holds c
  refine ⟨h, fun k => ?_, hzero, hLow, hMid, hHigh, hProbe, htwentyFive, fun k => by cases k <;> rfl, rfl⟩
  rw [initial_sensor_get]
  refine regsTyped_iff.2 ⟨hinit k, ?_⟩
  show (resetWindow (c.sensor.get k)).all c.num.holds = true
  unfold resetWindow
  split <;> simp [hinit k]

end NumbersTyped

/-- Settles O55: each elementary effect of an event keeps the windows full and the stream framed, and writes only numbers of
the configured type. -/
theorem everyStepKeepsTheInvariant : Obligations.EveryStepKeepsTheInvariant := by
  unfold Obligations.EveryStepKeepsTheInvariant
  exact ⟨fun s t hs h => blockInv_step hs h, fun s t hs h => typed_iff.2 ((typed_iff.1 hs).step h)⟩

/-- Settles O54: the first reset refills every window, empties `tx` and writes constants of the configuration alone. -/
theorem invariantHoldsAtReset : Obligations.InvariantHoldsAtReset := by
  unfold Obligations.InvariantHoldsAtReset
  have hlegal : Config.default.legal = true := by decide
  have htyped : cfgTyped Config.default = true := by decide
  exact ⟨⟨blockInv_initial hlegal, fun c h => blockInv_initial h⟩,
    typed_iff.2 (.initial htyped), fun c h => typed_iff.2 (.initial h)⟩

end Sys2Proof.Machine
end

section
/-! PROOFS. The window of a sensor read from the cursor on is the last `C(s)` of the values pushed, the fresh window's initial
values before them (rule R111). -/

namespace Sys2Proof.Machine

open Sys2Proof

/-- A push at the cursor, in the window read from the cursor on: the oldest value leaves it and the new one joins its end. -/
theorem rotate_pushSlot {buf : List Number} {cur : Nat} (h : cur < buf.length) (x : Number) :
    (pushSlot cur x buf).rotate (nextCursor buf.length cur) = (buf.rotate cur).tail ++ [x] := by
  have hlen : (pushSlot cur x buf).length = buf.length := pushSlot_length cur x buf
  have hpush : pushSlot cur x buf = buf.take cur ++ x :: buf.drop (cur + 1) := by
    rw [pushSlot, List.set_eq_take_append_cons_drop, if_pos h]
  have hcur : (buf.take cur).length = cur := List.length_take_of_le h.le
  calc
    (pushSlot cur x buf).rotate (nextCursor buf.length cur) = (pushSlot cur x buf).rotate (cur + 1) := by
      rw [nextCursor, ← hlen, List.rotate_mod]
    _ = ((buf.take cur ++ [x]) ++ buf.drop (cur + 1)).rotate (buf.take cur ++ [x]).length := by
      rw [hpush]
      simp [hcur]
    _ = buf.drop (cur + 1) ++ (buf.take cur ++ [x]) := List.rotate_append_length_eq _ _
    _ = (buf.rotate cur).tail ++ [x] := by
      rw [List.rotate_eq_drop_append_take h.le, List.tail_append_of_ne_nil (by simpa using h), List.tail_drop,
        List.append_assoc]

/-- A sensor's registers after pushes of `xs` onto a fresh window of `c` copies of `v`. -/
def HoldsLastPushes (c : Nat) (v : Number) (xs : List Number) (r : SensorRegs) : Prop :=
  r.buf.length = c ∧ r.cur = xs.length % c ∧
    r.buf.rotate r.cur = (List.replicate c v ++ xs).drop xs.length

/-- One more push puts one more value at the end of the history. -/
theorem holdsLastPushes_push {c : Nat} (hc : 1 ≤ c) {v : Number} {xs : List Number} {r : SensorRegs}
    (h : HoldsLastPushes c v xs r) (x : Number) :
    HoldsLastPushes c v (xs ++ [x]) { r with buf := pushSlot r.cur x r.buf, cur := nextCursor c r.cur } := by
  obtain ⟨hlen, hcur, hrot⟩ := h
  refine ⟨by simpa using hlen, by simp [nextCursor, hcur], ?_⟩
  have hlt : r.cur < r.buf.length := by
    rw [hcur, hlen]
    exact Nat.mod_lt _ hc
  show (pushSlot r.cur x r.buf).rotate (nextCursor c r.cur) = _
  rw [← hlen, rotate_pushSlot hlt, hrot, hlen, List.tail_drop, ← List.append_assoc, List.length_append,
    List.length_singleton]
  exact (List.drop_append_of_le_length (by simp; omega)).symm

/-- With fewer than `c` pushes the window is those in order and then the initial value. -/
theorem HoldsLastPushes.buf_of_lt {c : Nat} {v : Number} {xs : List Number} {r : SensorRegs}
    (h : HoldsLastPushes c v xs r) (hn : xs.length < c) : r.buf = xs ++ List.replicate (c - xs.length) v := by
  obtain ⟨-, hcur, hrot⟩ := h
  rw [hcur, Nat.mod_eq_of_lt hn] at hrot
  apply List.rotate_injective xs.length
  show r.buf.rotate xs.length = (xs ++ List.replicate (c - xs.length) v).rotate xs.length
  rw [hrot, List.rotate_append_length_eq, List.drop_append_of_le_length (by simpa using hn.le), List.drop_replicate]

/-- With `c` pushes or more the window holds the last `c` of them, the most recent just behind the cursor. -/
theorem HoldsLastPushes.getElem?_of_le {c : Nat} {v : Number} {xs : List Number} {r : SensorRegs}
    (h : HoldsLastPushes c v xs r) (hn : c ≤ xs.length) {j : Nat} (hj : j < c) :
    r.buf[(r.cur + (c - 1 - j)) % c]? = xs[xs.length - 1 - j]? := by
  obtain ⟨hlen, -, hrot⟩ := h
  calc
    r.buf[(r.cur + (c - 1 - j)) % c]? = (r.buf.rotate r.cur)[c - 1 - j]? := by
      rw [List.getElem?_rotate (by omega), hlen, Nat.add_comm]
    _ = (List.replicate c v ++ xs)[xs.length + (c - 1 - j)]? := by rw [hrot, List.getElem?_drop]
    _ = xs[xs.length - 1 - j]? := by
      rw [List.getElem?_append_right (by simp; omega), List.length_replicate]
      congr 1
      omega

/-- The registers of a filtered sensor after one push, and the configuration, which it keeps. -/
theorem push_regs {k : Kind} {s : State} (x : Number) (h : s.filter k ≠ .none) :
    (push k x s).2.regs k =
        { s.regs k with buf := pushSlot (s.regs k).cur x (s.regs k).buf, cur := nextCursor (s.cap k) (s.regs k).cur } ∧
      (push k x s).2.cfg = s.cfg := by
  obtain ⟨n, e⟩ := push_state x h
  rw [e]
  exact ⟨PerKind.get_set_same _ _ _, rfl⟩

/-- Pushes keep the window the last values of the history, whatever the history before them. -/
theorem holdsLastPushes_foldl {k : Kind} {v : Number} (xs : List Number) {ys : List Number} {s : State}
    (hf : s.filter k ≠ .none) (hc : 1 ≤ s.cap k) (h : HoldsLastPushes (s.cap k) v ys (s.regs k)) :
    HoldsLastPushes (s.cap k) v (ys ++ xs) ((xs.foldl (fun s x => (push k x s).2) s).regs k) := by
  induction xs generalizing s ys with
  | nil => simpa using h
  | cons x xs ih =>
    obtain ⟨hregs, hcfg⟩ := push_regs x hf
    have hcap : (push k x s).2.cap k = s.cap k := by simp only [State.cap, hcfg]
    have hfilter : (push k x s).2.filter k ≠ .none := by simpa only [State.filter, hcfg] using hf
    have hpush := holdsLastPushes_push hc h x
    rw [← hregs, ← hcap] at hpush
    have hrest := ih hfilter (by rwa [hcap]) hpush
    rwa [hcap, List.append_assoc] at hrest

/-- Settles O30: a fresh window is the end of its own history, and every push keeps it so. -/
theorem windowHoldsTheLastPushes : Obligations.WindowHoldsTheLastPushes := by
  unfold Obligations.WindowHoldsTheLastPushes
  intro k xs v s c hf hc hfresh t r
  have hstart : HoldsLastPushes c v [] (s.regs k) := by
    rw [State.regs, hfresh]
    exact ⟨by simp, by simp, by simp⟩
  have h : HoldsLastPushes c v xs r := holdsLastPushes_foldl xs hf hc hstart
  have ⟨hlen, hcur, _⟩ := h
  exact ⟨hcur, h.buf_of_lt, fun hn => ⟨hlen, fun j hj => h.getElem?_of_le hn hj⟩⟩

end Sys2Proof.Machine
end

section
/-! PROOFS. The transmit stream: what each event appends to it, and that no event reads it (rule R38). -/

namespace Sys2Proof.Machine

open Sys2Proof

/-- One sensor's share of a tick appends one frame of five bytes if the sensor is present, and none if it is not. -/
theorem tickSensor_appends {k : Kind} {s t : State} (h : tickSensor k s = .next t) :
    ∃ u, t.tx = s.tx ++ u ∧ u.length = if (s.cfg.sensor.get k).present then 5 else 0 := by
  obtain ⟨hp, rfl⟩ | ⟨hp, ans, v, b, c, n, q, rfl, -, -⟩ := tickSensor_cases h <;>
    rw [State.present] at hp
  · exact ⟨[], by simp [hp]⟩
  · exact ⟨_, rfl, by simp [hp, encodeTelemetry]⟩

/-- A tick appends five bytes for every present sensor (rule R175). -/
theorem tick_appends {s t : State} (h : tick s = .next t) :
    ∃ u, t.tx = s.tx ++ u ∧
      u.length = 5 * ([Kind.temp, .ph, .tds].filter fun k => (s.cfg.sensor.get k).present).length := by
  obtain ⟨u, v, hTemp, hPh, hTds⟩ := tick_cases h
  obtain ⟨a, hu, ha⟩ := tickSensor_appends hTemp
  obtain ⟨b, hv, hb⟩ := tickSensor_appends hPh
  obtain ⟨c, ht, hc⟩ := tickSensor_appends hTds
  have hcu : u.cfg = s.cfg := tickSensor_keeps_cfg hTemp
  have hcv : v.cfg = s.cfg := (tickSensor_keeps_cfg hPh).trans hcu
  rw [hcu] at hb
  rw [hcv] at hc
  refine ⟨a ++ b ++ c, by simp [ht, hv, hu], ?_⟩
  simp only [List.length_append, ha, hb, hc, List.filter_cons, List.filter_nil]
  split <;> split <;> split <;> rfl

/-- An event other than a tick appends nothing and removes nothing. -/
theorem runEvent_keeps_tx {e : Event} {s t : State} (he : e ≠ .tick) (h : runEvent e s = .next t) : t.tx = s.tx := by
  cases e with
  | rxByte b =>
    obtain ⟨-, -, htx, -⟩ := rxByte_keeps h
    exact htx
  | tick => exact absurd rfl he
  | setTemp x =>
    cases h
    exact setTemp_tx x s
  | hwReset =>
    cases h
    exact hwReset_tx s

/-- Settles O57: a tick appends one frame a present sensor, and every other event keeps `tx`. -/
theorem transmitStreamGrowsOnlyByTicks : Obligations.TransmitStreamGrowsOnlyByTicks := by
  unfold Obligations.TransmitStreamGrowsOnlyByTicks
  refine ⟨rfl, fun s t h => ?_⟩
  obtain ⟨-, ⟨hev, rfl⟩ | ⟨e, es, hev, hrun⟩⟩ := step_cases h
  · exact ⟨[], by simp, by simp [hev], fun _ => rfl⟩
  · by_cases he : e = .tick
    · subst he
      obtain ⟨u, htx, hlen⟩ := tick_appends hrun
      exact ⟨u, htx, fun _ => hlen, fun hne => absurd (by rw [hev]; rfl) hne⟩
    · have htx : t.tx = s.tx := (runEvent_keeps_tx he hrun).trans (State.setEvents_tx s es)
      exact ⟨[], by simpa using htx, fun htick => absurd (by simpa [hev] using htick) he, fun _ => rfl⟩

/-- `s` with the bytes `u` sent before those of its `tx`. -/
def sentBefore (u : List Byte) (s : State) : State := { s with tx := u ++ s.tx }

@[simp] theorem sentBefore_cfg (u : List Byte) (s : State) : (sentBefore u s).cfg = s.cfg := rfl
@[simp] theorem sentBefore_rxBuf (u : List Byte) (s : State) : (sentBefore u s).rxBuf = s.rxBuf := rfl
@[simp] theorem sentBefore_rxCnt (u : List Byte) (s : State) : (sentBefore u s).rxCnt = s.rxCnt := rfl
@[simp] theorem sentBefore_phMode (u : List Byte) (s : State) : (sentBefore u s).phMode = s.phMode := rfl
@[simp] theorem sentBefore_events (u : List Byte) (s : State) : (sentBefore u s).events = s.events := rfl
@[simp] theorem sentBefore_present (k : Kind) (u : List Byte) (s : State) :
    (sentBefore u s).present k = s.present k := rfl
@[simp] theorem sentBefore_filter (k : Kind) (u : List Byte) (s : State) :
    (sentBefore u s).filter k = s.filter k := rfl

/-- An operation that answers the same, and sends the same, whatever was sent before. -/
def IgnoresSent (f : State → Outcome) : Prop :=
  ∀ (u : List Byte) (s t : State), f s = .next t → f (sentBefore u s) = .next (sentBefore u t)

/-- An operation that always completes ignores what was sent before when its effect does. -/
theorem ignoresSent_next {f : State → State} (h : ∀ u s, f (sentBefore u s) = sentBefore u (f s)) :
    IgnoresSent fun s => .next (f s) := by
  intro u s t ht
  cases ht
  exact congrArg _ (h u s)

/-- What `f` ignores, `onPresent k f` ignores. -/
theorem onPresent_sentBefore {k : Kind} {f : State → State} (h : ∀ u s, f (sentBefore u s) = sentBefore u (f s))
    (u : List Byte) (s : State) : onPresent k f (sentBefore u s) = sentBefore u (onPresent k f s) := by
  unfold onPresent
  rw [sentBefore_present]
  split
  · exact h u s
  · rfl

/-- A request gets the same answer. -/
theorem afterRaw_sentBefore (k : Kind) (u : List Byte) (s : State) :
    (sentBefore u s).afterRaw k = sentBefore u (s.afterRaw k) := by
  cases h : s.rawAns.get k with
  | nil =>
    rw [(State.afterRaw_free h).2, (State.afterRaw_free (s := sentBefore u s) h).2]
    rfl
  | cons v rest =>
    rw [(State.afterRaw_scripted h).2, (State.afterRaw_scripted (s := sentBefore u s) h).2]
    rfl

/-- `PH.RESET` ignores what was sent before. -/
theorem restorePh_sentBefore (u : List Byte) (s : State) : restorePh (sentBefore u s) = sentBefore u (restorePh s) := by
  unfold restorePh
  rw [sentBefore_phMode]
  cases s.phMode <;> rfl

/-- Every command ignores what was sent before. -/
theorem commandEffect_sentBefore (k : Kind) (m : Command) (arg : Half) (u : List Byte) (s : State) :
    commandEffect k m arg (sentBefore u s) = sentBefore u (commandEffect k m arg s) := by
  cases k with
  | temp => rfl
  | ph =>
    cases m with
    | reset => exact restorePh_sentBefore u s
    | calibrate | calLow | calMid | calHigh =>
      simp only [commandEffect, afterRaw_sentBefore]
      rfl
    | setMode => rfl
  | tds =>
    cases m with
    | calibrate =>
      simp only [commandEffect, afterRaw_sentBefore]
      rfl
    | reset | calLow | calMid | calHigh | setMode => rfl

/-- A read gives the same answer and leaves the same window. -/
theorem readSensor_sentBefore (k : Kind) (u : List Byte) (s : State) :
    readSensor k (sentBefore u s) = ((readSensor k s).1, sentBefore u (readSensor k s).2) := by
  unfold readSensor push
  rw [sentBefore_filter]
  cases s.filter k <;> rfl

/-- An update stores the same value. -/
theorem updateSensor_sentBefore (k : Kind) (u : List Byte) (s : State) :
    updateSensor k (sentBefore u s) = sentBefore u (updateSensor k s) := by
  unfold updateSensor
  rw [afterRaw_sentBefore]
  rfl

theorem resetSensor_sentBefore (k : Kind) (u : List Byte) (s : State) :
    resetSensor k (sentBefore u s) = sentBefore u (resetSensor k s) := by
  rw [resetSensor_eq, resetSensor_eq]
  rfl

/-- `HWRESET` ignores what was sent before. -/
theorem hwReset_sentBefore (u : List Byte) (s : State) : hwReset (sentBefore u s) = sentBefore u (hwReset s) := by
  have hph u s : resetPh (sentBefore u s) = sentBefore u (resetPh s) := onPresent_sentBefore (fun _ _ => rfl) u s
  have htds u s : resetTds (sentBefore u s) = sentBefore u (resetTds s) := onPresent_sentBefore (fun _ _ => rfl) u s
  have hstart : (sentBefore u s).setRxCnt 0 = sentBefore u (s.setRxCnt 0) := rfl
  unfold hwReset
  rw [hstart, resetSensor_sentBefore, resetSensor_sentBefore, resetSensor_sentBefore, hph, htds]

/-- A frame goes behind everything sent before. -/
theorem emitTelemetry_sentBefore (k : Kind) (q : Half) (u : List Byte) (s : State) :
    emitTelemetry k q (sentBefore u s) = sentBefore u (emitTelemetry k q s) := by
  rw [emitTelemetry_eq, emitTelemetry_eq]
  simp [sentBefore]

theorem ignoresSent_tickSensor (k : Kind) : IgnoresSent (tickSensor k) := by
  intro u s t h
  rw [tickSensor_eq] at h ⊢
  rw [sentBefore_present, sentBefore_cfg, updateSensor_sentBefore, readSensor_sentBefore,
    onPresent_sentBefore (emitTelemetry_sentBefore k _)]
  split at h <;> cases h
  · rw [if_pos ‹_›]
  · rw [if_neg ‹_›]

theorem ignoresSent_tick : IgnoresSent tick := by
  intro u s t h
  obtain ⟨v, w, hTemp, hPh, hTds⟩ := tick_cases h
  simp only [tick, ignoresSent_tickSensor _ u _ _ hTemp, ignoresSent_tickSensor _ u _ _ hPh,
    ignoresSent_tickSensor _ u _ _ hTds, andThen_of_next]

theorem ignoresSent_command (k : Kind) (m : Command) (arg : Half) : IgnoresSent (exec (Instr.ofCommand k m arg)) := by
  intro u s t h
  rw [exec_ofCommand] at h ⊢
  exact ignoresSent_next (onPresent_sentBefore (commandEffect_sentBefore k m arg)) u s t h

theorem ignoresSent_dispatch (kb cb : Byte) (arg : Half) : IgnoresSent (dispatch kb cb arg) := by
  intro u s t h
  unfold dispatch commandInstr at h ⊢
  rw [sentBefore_cfg]
  cases hk : s.cfg.codes.kindOf kb with
  | none =>
    rw [hk] at h
    cases h
    rfl
  | some k =>
    cases hm : s.cfg.codes.commandOf cb with
    | none =>
      rw [hk, hm] at h
      cases h
      rfl
    | some m =>
      rw [hk, hm] at h
      exact ignoresSent_command k m arg u s t h

theorem ignoresSent_judgeChunk : IgnoresSent judgeChunk := by
  intro u s t h
  unfold judgeChunk at h ⊢
  rw [sentBefore_cfg, sentBefore_rxBuf]
  cases hd : dec6 s.cfg.codes.pfx s.rxBuf.toList with
  | error e =>
    rw [hd] at h
    cases h
    rfl
  | frame f =>
    rw [hd] at h
    exact ignoresSent_dispatch f.kind f.command (frameArg f) u s t h

theorem ignoresSent_rxByte (b : Byte) : IgnoresSent (rxByte b) := by
  intro u s t h
  unfold rxByte at h ⊢
  rw [sentBefore_rxCnt]
  split at h
  · cases h
    rw [if_pos ‹_›]
    rfl
  · rw [if_neg ‹_›]
    exact ignoresSent_judgeChunk u _ t h

theorem ignoresSent_runEvent (e : Event) : IgnoresSent (runEvent e) := by
  cases e with
  | rxByte b => exact ignoresSent_rxByte b
  | tick => exact ignoresSent_tick
  | setTemp x => exact ignoresSent_next (onPresent_sentBefore fun _ _ => rfl)
  | hwReset => exact ignoresSent_next hwReset_sentBefore

/-- Settles O58: every event ignores what was sent before, and the next event does not depend on it. -/
theorem transmitStreamIsNeverRead : Obligations.TransmitStreamIsNeverRead := by
  unfold Obligations.TransmitStreamIsNeverRead
  intro s t u h
  show step (sentBefore u s) = .next (sentBefore u t)
  obtain ⟨hl, ⟨hev, rfl⟩ | ⟨e, es, hev, hrun⟩⟩ := step_cases h
  · rw [step_eq, sentBefore_cfg, if_pos hl, nextEvent, sentBefore_events, hev]
  · rw [step_event (s := sentBefore u s) hl hev]
    exact ignoresSent_runEvent e u (s.setEvents es) t hrun

end Sys2Proof.Machine
end

section
/-! PROOFS. Who may write the calibration: an accepted command frame, `SETTEMP` and `HWRESET` (rules R28, R34, R159). -/

namespace Sys2Proof.Machine

open Sys2Proof

/-- One sensor's share of a tick writes no calibration. -/
theorem tickSensor_keeps_calibration {k : Kind} {s t : State} (h : tickSensor k s = .next t) :
    calibration t = calibration s := by
  obtain ⟨-, rfl⟩ | ⟨-, ans, v, b, c, n, q, rfl, -, -⟩ := tickSensor_cases h <;> rfl

/-- A tick writes no calibration. -/
theorem tick_keeps_calibration {s t : State} (h : tick s = .next t) : calibration t = calibration s := by
  obtain ⟨u, v, hTemp, hPh, hTds⟩ := tick_cases h
  calc
    calibration t = calibration v := tickSensor_keeps_calibration hTds
    _ = calibration u := tickSensor_keeps_calibration hPh
    _ = calibration s := tickSensor_keeps_calibration hTemp

/-- `SETTEMP` writes at most the ambient temperature (rule R137). -/
theorem setTemp_calibration (x : Number) (s : State) :
    calibration (setTemp x s) = calibration s ∨ calibration (setTemp x s) = { calibration s with tdsTemp := x } := by
  unfold setTemp onPresent
  split
  · exact .inr rfl
  · exact .inl rfl

/-- A received byte writes no calibration unless it completes a chunk that decodes to a command (rule R99). -/
theorem rxByte_calibration {b : Byte} {s t : State} (h : rxByte b s = .next t) :
    calibration t = calibration s ∨
      s.rxCnt = 5 ∧ ∃ i, decodeCommand s.cfg.codes (s.rxBuf.set 5 b).toList = .instr i := by
  obtain ⟨-, e⟩ | ⟨h5, ⟨-, -, e⟩ | ⟨f, hd, e⟩⟩ := rxByte_cases b s <;> rw [e] at h
  · cases h
    exact .inl rfl
  · cases h
    exact .inl rfl
  · obtain ⟨-, e⟩ | ⟨k, m, hk, hm, -⟩ := dispatch_cases f.kind f.command (frameArg f) ((s.storeRx b).setRxCnt 0)
    · rw [e] at h
      cases h
      exact .inl rfl
    · refine .inr ⟨h5, Instr.ofCommand k m (frameArg f), ?_⟩
      have hchunk : (s.storeRx b).rxBuf = s.rxBuf.set 5 b := by simp [h5]
      have hk : s.cfg.codes.kindOf f.kind = some k := hk
      have hm : s.cfg.codes.commandOf f.command = some m := hm
      rw [hchunk] at hd
      simp [decodeCommand, hd, commandInstr, hk, hm, frameArg]

/-- Settles O59: a wait, a tick, and a byte that completes no command frame keep the calibration, and `SETTEMP` writes the
ambient temperature alone. -/
theorem onlyCommandsChangeTheCalibration : Obligations.OnlyCommandsChangeTheCalibration := by
  unfold Obligations.OnlyCommandsChangeTheCalibration
  intro s t h hne
  obtain ⟨-, ⟨-, rfl⟩ | ⟨e, es, hev, hrun⟩⟩ := step_cases h
  · exact absurd rfl hne
  rw [hev, List.head?_cons]
  cases e with
  | rxByte b =>
    obtain hkept | ⟨h5, i, hi⟩ := rxByte_calibration hrun
    · exact absurd hkept hne
    · exact .inr (.inr ⟨b, i, rfl, h5, hi⟩)
  | tick => exact absurd (tick_keeps_calibration hrun) hne
  | setTemp x =>
    cases hrun
    obtain hkept | hset := setTemp_calibration x (s.setEvents es)
    · exact absurd hkept hne
    · exact .inr (.inl ⟨x, rfl, hset⟩)
  | hwReset => exact .inl rfl

end Sys2Proof.Machine
end

section
/-! PROOFS. No event touches an absent sensor: every write of a sensor's own stands behind its presence (rules R20, R40). -/

namespace Sys2Proof.Machine

open Sys2Proof

/-- Nothing of sensor `k` differs between `s` and `t`, and no request was made to it in between. -/
structure Untouched (k : Kind) (s t : State) : Prop where
  regs : t.sensor.get k = s.sensor.get k
  answers : t.rawAns.get k = s.rawAns.get k
  requests : ∃ l, t.rawLog = s.rawLog ++ l ∧ k ∉ l
  ph : k = .ph → t.phMode = s.phMode ∧ t.phZeroOffset = s.phZeroOffset ∧ t.phLow = s.phLow ∧ t.phMid = s.phMid ∧
    t.phHigh = s.phHigh
  tds : k = .tds → t.tdsProbe = s.tdsProbe ∧ t.tdsTemp = s.tdsTemp

namespace Untouched

variable {j k : Kind} {s t u : State}

theorem trans (h : Untouched k s t) (h' : Untouched k t u) : Untouched k s u where
  regs := h'.regs.trans h.regs
  answers := h'.answers.trans h.answers
  requests := by
    obtain ⟨l, hl, hk⟩ := h.requests
    obtain ⟨l', hl', hk'⟩ := h'.requests
    exact ⟨l ++ l', by rw [hl', hl, List.append_assoc], by simp [hk, hk']⟩
  ph e := by
    obtain ⟨h1, h2, h3, h4, h5⟩ := h.ph e
    obtain ⟨h1', h2', h3', h4', h5'⟩ := h'.ph e
    exact ⟨h1'.trans h1, h2'.trans h2, h3'.trans h3, h4'.trans h4, h5'.trans h5⟩
  tds e := by
    obtain ⟨h1, h2⟩ := h.tds e
    obtain ⟨h1', h2'⟩ := h'.tds e
    exact ⟨h1'.trans h1, h2'.trans h2⟩

/-- Writes of the receive registers, of `tx`, of the events and of the draws are no sensor's. -/
theorem link (k : Kind) (s : State) (buf : Vector Byte 6) (cnt : Fin 6) (tx : List Byte) (es : List Event) (n : Nat) :
    Untouched k s { s with rxBuf := buf, rxCnt := cnt, tx := tx, events := es, free := n } :=
  ⟨rfl, rfl, ⟨[], by simp, by simp⟩, fun _ => ⟨rfl, rfl, rfl, rfl, rfl⟩, fun _ => ⟨rfl, rfl⟩⟩

/-- Writes of one sensor's registers touch no other. -/
theorem sensorRegs (h : j ≠ k) (s : State) (r : SensorRegs) : Untouched j s { s with sensor := s.sensor.set k r } :=
  ⟨PerKind.get_set_other _ _ h, rfl, ⟨[], by simp, by simp⟩, fun _ => ⟨rfl, rfl, rfl, rfl, rfl⟩, fun _ => ⟨rfl, rfl⟩⟩

/-- Writes of the PH registers touch no other sensor. -/
theorem phRegs (h : j ≠ .ph) (s : State) (m : PhMode) (offset low mid high : Number) :
    Untouched j s { s with phMode := m, phZeroOffset := offset, phLow := low, phMid := mid, phHigh := high } :=
  ⟨rfl, rfl, ⟨[], by simp, by simp⟩, fun e => absurd e h, fun _ => ⟨rfl, rfl⟩⟩

/-- Writes of the TDS registers touch no other sensor. -/
theorem tdsRegs (h : j ≠ .tds) (s : State) (probe temp : Number) :
    Untouched j s { s with tdsProbe := probe, tdsTemp := temp } :=
  ⟨rfl, rfl, ⟨[], by simp, by simp⟩, fun _ => ⟨rfl, rfl, rfl, rfl, rfl⟩, fun e => absurd e h⟩

/-- A request to one sensor touches no other. -/
theorem request (h : j ≠ k) (s : State) (ans : List Number) :
    Untouched j s { s with rawAns := s.rawAns.set k ans, rawLog := s.rawLog ++ [k] } :=
  ⟨rfl, PerKind.get_set_other _ _ h, ⟨[k], rfl, by simpa using h⟩, fun _ => ⟨rfl, rfl, rfl, rfl, rfl⟩,
    fun _ => ⟨rfl, rfl⟩⟩

/-- What is touched behind the presence of a sensor is touched at most. -/
theorem onPresent {f : State → State} (h : Untouched j s (f s)) : Untouched j s (onPresent k f s) := by
  unfold Machine.onPresent
  split
  · exact h
  · exact link ..

theorem afterRaw (h : j ≠ k) (s : State) : Untouched j s (s.afterRaw k) := by
  obtain ⟨ans, n, e⟩ := State.afterRaw_fields k s
  rw [e]
  exact (request h s ans).trans (link j _ s.rxBuf s.rxCnt s.tx s.events n)

theorem restorePh (h : j ≠ .ph) (s : State) : Untouched j s (restorePh s) := by
  unfold Machine.restorePh
  split <;> exact phRegs h ..

/-- A command touches its own sensor alone (rule R158). -/
theorem commandEffect (h : j ≠ k) (m : Command) (arg : Half) (s : State) :
    Untouched j s (commandEffect k m arg s) := by
  have hraw := afterRaw h s
  cases k with
  | temp => exact link ..
  | ph =>
    cases m with
    | reset => exact restorePh h s
    | calibrate | calLow | calMid | calHigh => exact hraw.trans (phRegs h ..)
    | setMode => exact phRegs h ..
  | tds =>
    cases m with
    | reset => exact tdsRegs h ..
    | calibrate => exact hraw.trans (tdsRegs h ..)
    | calLow | calMid | calHigh | setMode => exact link ..

theorem resetSensor (h : j ≠ k) (s : State) : Untouched j s (resetSensor k s) := by
  rw [resetSensor_eq]
  exact sensorRegs h s _

end Untouched

/-- Every sensor the configuration of `s` lacks is untouched in `t`, and the configuration is the same. -/
def AbsentUntouched (s t : State) : Prop := t.cfg = s.cfg ∧ ∀ k, s.present k = false → Untouched k s t

namespace AbsentUntouched

variable {k : Kind} {s t u : State}

theorem trans (h : AbsentUntouched s t) (h' : AbsentUntouched t u) : AbsentUntouched s u := by
  obtain ⟨hc, hk⟩ := h
  obtain ⟨hc', hk'⟩ := h'
  refine ⟨hc'.trans hc, fun k hp => (hk k hp).trans (hk' k ?_)⟩
  rwa [State.present, hc]

theorem link (s : State) (buf : Vector Byte 6) (cnt : Fin 6) (tx : List Byte) (es : List Event) (n : Nat) :
    AbsentUntouched s { s with rxBuf := buf, rxCnt := cnt, tx := tx, events := es, free := n } :=
  ⟨rfl, fun k _ => .link k s buf cnt tx es n⟩

/-- What touches sensor `k` alone, and nothing where `k` is absent, touches no absent sensor. -/
theorem of_guarded (hcfg : t.cfg = s.cfg) (habsent : s.present k = false → t = s)
    (hother : ∀ j, j ≠ k → Untouched j s t) : AbsentUntouched s t := by
  refine ⟨hcfg, fun j hj => ?_⟩
  by_cases hjk : j = k
  · subst hjk
    rw [habsent hj]
    exact .link ..
  · exact hother j hjk

/-- A command (rules R81, R174). -/
theorem command (k : Kind) (m : Command) (arg : Half) (s : State) :
    AbsentUntouched s (onPresent k (commandEffect k m arg) s) := by
  obtain ⟨hcfg, -⟩ := onPresent_commandEffect_keeps k m arg s
  exact of_guarded hcfg onPresent_absent fun j h => .onPresent (.commandEffect h m arg s)

/-- One sensor's share of a tick (rule R175). -/
theorem tickSensor (h : tickSensor k s = .next t) : AbsentUntouched s t := by
  refine of_guarded (k := k) (tickSensor_keeps_cfg h) ?_ ?_ <;>
    obtain ⟨hp, rfl⟩ | ⟨hp, ans, v, b, c, n, q, rfl, -, -⟩ := tickSensor_cases h
  · exact fun _ => rfl
  · exact fun hp' => absurd (hp.symm.trans hp') (by decide)
  · exact fun j _ => .link ..
  · exact fun j hjk => ((Untouched.request hjk s ans).trans (.sensorRegs hjk _ _)).trans (.link ..)

/-- `SETTEMP` (rule R137). -/
theorem setTemp (x : Number) (s : State) : AbsentUntouched s (setTemp x s) :=
  of_guarded (setTemp_cfg x s) onPresent_absent fun _ h => .onPresent (.tdsRegs h s s.tdsProbe x)

/-- `HWRESET`, a share for each sensor (rule R210). -/
theorem hwReset (s : State) : AbsentUntouched s (hwReset s) := by
  have hsensor (k : Kind) (s : State) : AbsentUntouched s (resetSensor k s) :=
    of_guarded (resetSensor_cfg k s) onPresent_absent fun _ h => .resetSensor h s
  have hph (s : State) : AbsentUntouched s (resetPh s) :=
    of_guarded (resetPh_cfg s) onPresent_absent fun _ h => .onPresent (.phRegs h ..)
  have htds (s : State) : AbsentUntouched s (resetTds s) :=
    of_guarded (resetTds_cfg s) onPresent_absent fun _ h => .onPresent (.tdsRegs h ..)
  have hcount : AbsentUntouched s (s.setRxCnt 0) := link ..
  exact ((((hcount.trans (hsensor .temp _)).trans (hsensor .ph _)).trans (hsensor .tds _)).trans (hph _)).trans (htds _)

/-- Every event. -/
theorem runEvent {e : Event} (h : runEvent e s = .next t) : AbsentUntouched s t :=
  runEvent_preserves (P := AbsentUntouched s)
    (store := fun _ _ _ hu => hu.trans (link ..))
    (command := fun _ k m arg hu => hu.trans (command k m arg _))
    (share := fun hu hv => hu.trans (tickSensor hv))
    (ambient := fun _ x _ hu => hu.trans (setTemp x _))
    (reset := fun _ hu => hu.trans (hwReset _))
    (link ..) h

/-- Every step. -/
theorem step (h : step s = .next t) : AbsentUntouched s t := by
  obtain ⟨-, ⟨-, rfl⟩ | ⟨e, es, -, hrun⟩⟩ := step_cases h
  · exact link ..
  · exact trans (link s s.rxBuf s.rxCnt s.tx es s.free) (runEvent hrun)

end AbsentUntouched

/-- Settles O60: each write of a sensor's own stands behind the presence of that sensor, and touches no other. -/
theorem absentSensorIsNeverTouched : Obligations.AbsentSensorIsNeverTouched := by
  unfold Obligations.AbsentSensorIsNeverTouched
  intro s t k h hk
  obtain ⟨-, hall⟩ := AbsentUntouched.step h
  obtain ⟨hregs, hanswers, hrequests, hph, htds⟩ := hall k hk
  exact ⟨hregs, hanswers, hrequests, hph, htds⟩

end Sys2Proof.Machine
end

section
/-! PROOFS. Decode and encode agree: an instruction decodes from its encoding, and the decoder reads no other sequence as
that instruction (rules R83, R84, R86). -/

namespace Sys2Proof

/-- `DEC6` answers the fields `ENC6` was given (rule R97). -/
@[simp] theorem dec6_enc6 (pfx k p0 p1 p2 : Byte) :
    dec6 pfx (enc6 pfx k p0 p1 p2) = .frame { kind := k, command := p0, argHi := p1, argLo := p2 } := by
  simp [dec6, enc6]

/-- `DEC5` answers the fields `ENC5` was given (rule R97). -/
@[simp] theorem dec5_enc5 (pfx k v0 v1 : Byte) :
    dec5 pfx (enc5 pfx k v0 v1) = .frame { kind := k, valueHi := v0, valueLo := v1 } := by
  simp [dec5, enc5]

/-- The two bytes select an instruction exactly if they select its kind and its command (rule R174). -/
theorem commandInstr_eq_some {c : Codes} {kb cb : Byte} {arg : Half} {i : Instr} :
    commandInstr c kb cb arg = some i ↔
      ∃ k m, c.kindOf kb = some k ∧ c.commandOf cb = some m ∧ Instr.ofCommand k m arg = i := by
  cases hk : c.kindOf kb <;> cases hm : c.commandOf cb <;> simp [commandInstr, hk, hm]

/-- An encoded command frame decodes to the pair its kind byte and command byte select. -/
theorem decode_enc6 {c : Codes} {kb cb : Byte} {k : Kind} {m : Command} (hk : c.kindOf kb = some k)
    (hm : c.commandOf cb = some m) (a b : Byte) :
    decode c (enc6 c.pfx kb cb a b) = .instr (Instr.ofCommand k m (half a b)) := by
  have hi : commandInstr c kb cb (half a b) = some (Instr.ofCommand k m (half a b)) :=
    commandInstr_eq_some.2 ⟨k, m, hk, hm, rfl⟩
  simp [decode, decodeCommand, hi]

/-- An encoded telemetry frame decodes to the kind its kind byte selects. -/
theorem decode_enc5 {c : Codes} {kb : Byte} {k : Kind} (hk : c.kindOf kb = some k) (a b : Byte) :
    decode c (enc5 c.pfx kb a b) = .instr (Instr.ofTelemetry k (half a b)) := by
  simp [decode, decodeTelemetry, hk]

/-- With distinct codes every (kind, command) pair decodes from its encoding. -/
theorem decode_encodeCommand {c : Codes} (h : c.wellFormed = true) (k : Kind) (m : Command) (arg : Half) :
    decode c (encodeCommand c k m arg) = .instr (Instr.ofCommand k m arg) := by
  obtain ⟨hkinds, hcommands⟩ := Bool.and_eq_true_iff.1 h
  rw [encodeCommand, decode_enc6 (kindOf_kindCode hkinds k) (commandOf_cmdCode hcommands m), half_hi_lo]

/-- With distinct codes every kind's telemetry frame decodes from its encoding. -/
theorem decode_encodeTelemetry {c : Codes} (h : c.wellFormed = true) (k : Kind) (v : Half) :
    decode c (encodeTelemetry c k v) = .instr (Instr.ofTelemetry k v) := by
  obtain ⟨hkinds, -⟩ := Bool.and_eq_true_iff.1 h
  rw [encodeTelemetry, decode_enc5 (kindOf_kindCode hkinds k), half_hi_lo]

/-- Settles O6: each constructor's encoding is the frame of its pair or of its kind, and distinct codes select that pair or
kind back. -/
theorem decodeOfEncodeIsTheInstruction : Obligations.DecodeOfEncodeIsTheInstruction := by
  unfold Obligations.DecodeOfEncodeIsTheInstruction
  intro c i hc _
  cases i with
  | tlmTemp v | tlmPh v | tlmTds v => exact decode_encodeTelemetry hc _ v
  | tempReset a | tempCalibrate a | tempCalLow a | tempCalMid a | tempCalHigh a | tempSetMode a
  | phReset a | phCalibrate a | phCalLow a | phCalMid a | phCalHigh a | phSetMode a
  | tdsReset a | tdsCalibrate a | tdsCalLow a | tdsCalMid a | tdsCalHigh a | tdsSetMode a =>
    exact decode_encodeCommand hc _ _ a

/-- A sequence read as a command instruction is that instruction's encoding. -/
theorem encode_of_decodeCommand {c : Codes} {bs : List Byte} {i : Instr} (h : decodeCommand c bs = .instr i) :
    encode c i = bs := by
  unfold decodeCommand at h
  split at h
  case h_1 => cases h
  case h_2 f hframe =>
    split at h
    case h_2 => cases h
    case h_1 j hj =>
      cases h
      obtain ⟨k, m, hk, hm, rfl⟩ := commandInstr_eq_some.1 hj
      rw [encode_ofCommand, encodeCommand, kindOf_some hk, commandOf_some hm, hiByte_half, loByte_half,
        ← dec6_eq_frame hframe]

/-- A sequence read as a telemetry instruction is that instruction's encoding. -/
theorem encode_of_decodeTelemetry {c : Codes} {bs : List Byte} {i : Instr} (h : decodeTelemetry c bs = .instr i) :
    encode c i = bs := by
  unfold decodeTelemetry at h
  split at h
  case h_1 => cases h
  case h_2 f hframe =>
    split at h
    case h_2 => cases h
    case h_1 k hk =>
      cases h
      rw [encode_ofTelemetry, encodeTelemetry, kindOf_some hk, hiByte_half, loByte_half, ← dec5_eq_frame hframe]

/-- Settles O7: an accepted frame is the `ENC` of its fields, and its kind and command bytes are the codes of what they
select. -/
theorem encodeOfDecodeIsTheBytes : Obligations.EncodeOfDecodeIsTheBytes := by
  unfold Obligations.EncodeOfDecodeIsTheBytes
  intro c bs i h
  unfold decode at h
  split at h
  · exact encode_of_decodeTelemetry h
  · exact encode_of_decodeCommand h

end Sys2Proof
end

section
/-! PROOFS. What the decoders accept: the valid frames of their shape, the rows of the opcode map among them (rules R80,
R84, R93, R94). -/

namespace Sys2Proof

/-- A valid 6-byte sequence is the `ENC6` of its four interior bytes. -/
theorem eq_enc6_of_validFrame {pfx : Byte} {bs : List Byte} (h : validFrame pfx 6 bs = true) :
    ∃ k p0 p1 p2, bs = enc6 pfx k p0 p1 p2 := by
  simp only [validFrame, Bool.and_eq_true, beq_iff_eq] at h
  obtain ⟨⟨hlength, hhead⟩, hlast⟩ := h
  match bs, hlength with
  | [b0, b1, b2, b3, b4, b5], _ => exact ⟨b1, b2, b3, b4, by simp_all [enc6]⟩

/-- A valid 5-byte sequence is the `ENC5` of its three interior bytes. -/
theorem eq_enc5_of_validFrame {pfx : Byte} {bs : List Byte} (h : validFrame pfx 5 bs = true) :
    ∃ k v0 v1, bs = enc5 pfx k v0 v1 := by
  simp only [validFrame, Bool.and_eq_true, beq_iff_eq] at h
  obtain ⟨⟨hlength, hhead⟩, hlast⟩ := h
  match bs, hlength with
  | [b0, b1, b2, b3, b4], _ => exact ⟨b1, b2, b3, by simp_all [enc5]⟩

/-- Settles O5: a valid frame and an accepted one are both the `ENC` of their interior bytes. -/
theorem decodersAcceptExactlyValidFrames : Obligations.DecodersAcceptExactlyValidFrames := by
  unfold Obligations.DecodersAcceptExactlyValidFrames
  refine ⟨fun pfx bs => ⟨fun h => ?_, fun ⟨f, h⟩ => ?_⟩, fun pfx bs => ⟨fun h => ?_, fun ⟨f, h⟩ => ?_⟩⟩
  · obtain ⟨k, p0, p1, p2, rfl⟩ := eq_enc6_of_validFrame h
    exact ⟨_, dec6_enc6 pfx k p0 p1 p2⟩
  · rw [dec6_eq_frame h]
    exact validFrame_enc6 ..
  · obtain ⟨k, v0, v1, rfl⟩ := eq_enc5_of_validFrame h
    exact ⟨_, dec5_enc5 pfx k v0 v1⟩
  · rw [dec5_eq_frame h]
    exact validFrame_enc5 ..

/-- `ENC6` with its checksum written as a sum (rules R90, R91). -/
theorem enc6_eq_sum (pfx k p0 p1 p2 : Byte) :
    enc6 pfx k p0 p1 p2 = [pfx, k, p0, p1, p2, pfx + k + p0 + p1 + p2] := by
  simp [enc6, checksum]

/-- `ENC5` with its checksum written as a sum (rules R90, R92). -/
theorem enc5_eq_sum (pfx k v0 v1 : Byte) : enc5 pfx k v0 v1 = [pfx, k, v0, v1, pfx + k + v0 + v1] := by
  simp [enc5, checksum]

/-- The default codes are legal (rule R212). -/
theorem Codes.default_wellFormed : Codes.default.wellFormed = true := by decide

/-- A command row of the opcode map, at every argument (rule R84). -/
theorem decode_default_command (k : Kind) (m : Command) (a b : Byte) :
    decode Codes.default [0x53, Codes.default.kindCode k, Codes.default.cmdCode m, a, b,
      0x53 + Codes.default.kindCode k + Codes.default.cmdCode m + a + b] = .instr (Instr.ofCommand k m (a ++ b)) := by
  obtain ⟨hkinds, hcommands⟩ := Bool.and_eq_true_iff.1 Codes.default_wellFormed
  have h := decode_enc6 (kindOf_kindCode hkinds k) (commandOf_cmdCode hcommands m) a b
  rwa [enc6_eq_sum] at h

/-- A telemetry row of the opcode map, at every value (rule R84). -/
theorem decode_default_telemetry (k : Kind) (a b : Byte) :
    decode Codes.default [0x53, Codes.default.kindCode k, a, b, 0x53 + Codes.default.kindCode k + a + b] =
      .instr (Instr.ofTelemetry k (a ++ b)) := by
  obtain ⟨hkinds, -⟩ := Bool.and_eq_true_iff.1 Codes.default_wellFormed
  have h := decode_enc5 (kindOf_kindCode hkinds k) a b
  rwa [enc5_eq_sum] at h

/-- Settles O8: each row is the frame of its pair or of its kind under the default codes. -/
theorem opcodeMapDecodes : Obligations.OpcodeMapDecodes := by
  unfold Obligations.OpcodeMapDecodes
  intro a b
  have row (k : Kind) (m : Command) := decode_default_command k m a b
  have report (k : Kind) := decode_default_telemetry k a b
  exact ⟨row .temp .reset, row .temp .calibrate, row .temp .calLow, row .temp .calMid, row .temp .calHigh,
    row .temp .setMode, row .ph .reset, row .ph .calibrate, row .ph .calLow, row .ph .calMid, row .ph .calHigh,
    row .ph .setMode, row .tds .reset, row .tds .calibrate, row .tds .calLow, row .tds .calMid, row .tds .calHigh,
    row .tds .setMode, report .temp, report .ph, report .tds⟩

/-- Settles O9: each word is its row of the opcode map at a written-out operand, the checksum computed. -/
theorem writtenWordsDecode : Obligations.WrittenWordsDecode := by
  unfold Obligations.WrittenWordsDecode
  exact ⟨decode_default_command .temp .reset 0x00 0x00, decode_default_command .ph .setMode 0x00 0x01,
    decode_default_command .tds .calibrate 0x1B 0x9E, decode_default_telemetry .ph 0x00 0x46⟩

end Sys2Proof
end

section
/-! PROOFS. The bytes a telemetry instruction sends (rules R92, R175). -/

namespace Sys2Proof.Machine

open Sys2Proof

/-- `v[15:8]` is the quotient of `v` by 256 (rule R8). -/
theorem hiByte_eq_ofNat (v : Half) : hiByte v = BitVec.ofNat 8 (v.toNat / 256) := by
  rw [hiByte, BitVec.extractLsb', Nat.shiftRight_eq_div_pow]

/-- `v[7:0]` is `v` modulo 256 (rule R8). -/
theorem loByte_eq_ofNat (v : Half) : loByte v = BitVec.ofNat 8 v.toNat := rfl

/-- Settles O24: the meaning of a telemetry instruction is the emission of its encoding, behind the presence of its
sensor. -/
theorem telemetryFrameAppendsItsBytes : Obligations.TelemetryFrameAppendsItsBytes := by
  unfold Obligations.TelemetryFrameAppendsItsBytes
  refine fun k v s => ⟨fun hpresent => ?_, fun habsent => ?_, rfl, rfl, rfl⟩
  · rw [exec_ofTelemetry, onPresent_present hpresent, emitTelemetry_eq, encodeTelemetry, enc5_eq_sum, hiByte_eq_ofNat,
      loByte_eq_ofNat]
  · rw [exec_ofTelemetry, onPresent_absent habsent]

end Sys2Proof.Machine
end

section
/-! PROOFS. The checksum is the sum of the bytes: how its value is computed, that their order does not matter, and that one
altered byte alters it (rule R90). -/

namespace Sys2Proof

/-- The wraparound sum is the sum in the ring of bytes, so the library's laws of finite sums hold of it. -/
theorem checksum_eq_sum (bs : List Byte) : checksum bs = bs.sum := List.sum_eq_foldl.symm

theorem checksum_cons (b : Byte) (bs : List Byte) : checksum (b :: bs) = b + checksum bs := by
  simp only [checksum_eq_sum, List.sum_cons]

/-- Reduction modulo 256 commutes with addition. -/
theorem checksum_toNat (bs : List Byte) : (checksum bs).toNat = (bs.map BitVec.toNat).sum % 256 := by
  induction bs with
  | nil => rfl
  | cons b bs ih => rw [checksum_cons, BitVec.toNat_add, ih, List.map_cons, List.sum_cons, Nat.add_mod_mod]

theorem checksum_perm {bs bs' : List Byte} (h : bs.Perm bs') : checksum bs = checksum bs' := by
  rw [checksum_eq_sum, checksum_eq_sum, h.sum_eq]

theorem checksum_replicate_zero (n : Nat) : checksum (List.replicate n 0x00) = 0x00 := by
  rw [checksum_eq_sum, List.sum_replicate, smul_zero]

/-- Settles O1: the checksum is a sum in the ring of bytes, and its value the sum of the values modulo 256. -/
theorem checksumIsTheSumModulo256 : Obligations.ChecksumIsTheSumModulo256 := by
  unfold Obligations.ChecksumIsTheSumModulo256
  exact ⟨checksum_toNat, fun _ _ => checksum_perm, rfl, rfl, checksum_replicate_zero, rfl⟩

/-- Replacing one byte by another value moves the checksum by their difference (rule R98). -/
theorem checksum_set_ne {bs : List Byte} {i : Nat} {b : Byte} (hi : i < bs.length) (hb : bs[i]? ≠ some b) :
    checksum bs ≠ checksum (bs.set i b) := by
  intro hsame
  rw [checksum_eq_sum, checksum_eq_sum, List.sum_set', dif_pos hi, left_eq_add, neg_add_eq_zero] at hsame
  exact hb (by rw [List.getElem?_eq_getElem hi, hsame])

end Sys2Proof
end

section
/-! PROOFS. The three tests of the decoders, one equation each, and what follows for the round trip and for an altered
frame (rules R80, R93 to R98). -/

namespace Sys2Proof

theorem dec6_badLength {pfx : Byte} {bs : List Byte} (h : bs.length ≠ 6) : dec6 pfx bs = .error .badLength := by
  unfold dec6
  split
  · exact absurd rfl h
  · rfl

theorem dec5_badLength {pfx : Byte} {bs : List Byte} (h : bs.length ≠ 5) : dec5 pfx bs = .error .badLength := by
  unfold dec5
  split
  · exact absurd rfl h
  · rfl

theorem dec6_badPrefix {pfx b0 b1 b2 b3 b4 b5 : Byte} (h : b0 ≠ pfx) :
    dec6 pfx [b0, b1, b2, b3, b4, b5] = .error .badPrefix := if_pos h

theorem dec5_badPrefix {pfx b0 b1 b2 b3 b4 : Byte} (h : b0 ≠ pfx) :
    dec5 pfx [b0, b1, b2, b3, b4] = .error .badPrefix := if_pos h

theorem dec6_checksumMismatch {pfx b1 b2 b3 b4 b5 : Byte} (h : b5 ≠ checksum [pfx, b1, b2, b3, b4]) :
    dec6 pfx [pfx, b1, b2, b3, b4, b5] = .error .checksumMismatch := by
  simp [dec6, h]

theorem dec5_checksumMismatch {pfx b1 b2 b3 b4 : Byte} (h : b4 ≠ checksum [pfx, b1, b2, b3]) :
    dec5 pfx [pfx, b1, b2, b3, b4] = .error .checksumMismatch := by
  simp [dec5, h]

/-- A sequence is read as a command instruction exactly if `DEC6` accepts it and its codes select that instruction. -/
theorem decodeCommand_eq_instr {c : Codes} {bs : List Byte} {i : Instr} :
    decodeCommand c bs = .instr i ↔
      ∃ f, dec6 c.pfx bs = .frame f ∧ commandInstr c f.kind f.command (half f.argHi f.argLo) = some i := by
  unfold decodeCommand
  cases hdec : dec6 c.pfx bs with
  | error e => simp
  | frame f => cases hsel : commandInstr c f.kind f.command (half f.argHi f.argLo) <;> simp [hsel]

/-- Settles O2: `DEC` of `ENC` gives the fields back, and what `DEC` answers came from the `ENC` of its fields. -/
theorem encodedFramesDecodeBack : Obligations.EncodedFramesDecodeBack := by
  unfold Obligations.EncodedFramesDecodeBack
  exact ⟨dec6_enc6, dec5_enc5, fun _ _ _ _ _ _ h => (dec6_eq_frame h).symm, fun _ _ _ _ _ h => (dec5_eq_frame h).symm⟩

/-- The checksum of five bytes written as a sum (rule R90). -/
theorem checksum_five (b0 b1 b2 b3 b4 : Byte) : checksum [b0, b1, b2, b3, b4] = b0 + b1 + b2 + b3 + b4 := by
  simp [checksum]

/-- The checksum of four bytes written as a sum (rule R90). -/
theorem checksum_four (b0 b1 b2 b3 : Byte) : checksum [b0, b1, b2, b3] = b0 + b1 + b2 + b3 := by
  simp [checksum]

/-- Settles O3: each test of the decoder under the name of its failure, and a sequence that passes them all is an `ENC`. -/
theorem decoderReportsTheFirstFailingTest : Obligations.DecoderReportsTheFirstFailingTest := by
  unfold Obligations.DecoderReportsTheFirstFailingTest
  refine ⟨fun _ _ => dec6_badLength, fun pfx b0 b1 b2 b3 b4 b5 => ⟨dec6_badPrefix, ?_, ?_⟩,
    fun _ _ => dec5_badLength, fun pfx b0 b1 b2 b3 b4 => ⟨dec5_badPrefix, ?_, ?_⟩⟩
  · rintro rfl hsum
    exact dec6_checksumMismatch (by rwa [checksum_five])
  · rintro rfl rfl
    rw [← enc6_eq_sum, dec6_enc6]
  · rintro rfl hsum
    exact dec5_checksumMismatch (by rwa [checksum_four])
  · rintro rfl rfl
    rw [← enc5_eq_sum, dec5_enc5]

/-- An altered interior byte of a command frame no longer agrees with the frame's checksum (rule R98). -/
theorem dec6_set_interior {pfx k p0 p1 p2 b : Byte} {i : Nat} (h1 : 1 ≤ i) (h4 : i ≤ 4)
    (hb : (enc6 pfx k p0 p1 p2)[i]? ≠ some b) :
    dec6 pfx ((enc6 pfx k p0 p1 p2).set i b) = .error .checksumMismatch := by
  have hne (hb : [pfx, k, p0, p1, p2][i]? ≠ some b) := checksum_set_ne (Nat.lt_succ_of_le h4) hb
  interval_cases i <;> exact dec6_checksumMismatch (hne hb)

/-- An altered interior byte of a telemetry frame no longer agrees with the frame's checksum (rule R98). -/
theorem dec5_set_interior {pfx k v0 v1 b : Byte} {i : Nat} (h1 : 1 ≤ i) (h3 : i ≤ 3)
    (hb : (enc5 pfx k v0 v1)[i]? ≠ some b) :
    dec5 pfx ((enc5 pfx k v0 v1).set i b) = .error .checksumMismatch := by
  have hne (hb : [pfx, k, v0, v1][i]? ≠ some b) := checksum_set_ne (Nat.lt_succ_of_le h3) hb
  interval_cases i <;> exact dec5_checksumMismatch (hne hb)

/-- A frame is valid exactly if its last byte is the checksum of the others (rule R80). -/
theorem validFrame_iff (pfx c : Byte) (p : List Byte) :
    validFrame pfx (p.length + 2) (pfx :: p ++ [c]) = true ↔ c = checksum (pfx :: p) := by
  simp only [validFrame, List.getLast?_concat, List.dropLast_concat]
  simp

/-- Settles O4: one altered byte alters the prefix, the checksum byte or the sum; a reordering or a pair of opposite changes
leaves the sum as it is. -/
theorem checksumDetectsOneAlteredByte : Obligations.ChecksumDetectsOneAlteredByte := by
  unfold Obligations.ChecksumDetectsOneAlteredByte
  refine ⟨fun pfx b f hvalid => ?_, fun pfx b f hvalid => ?_, fun pfx c p p' hperm hvalid => ?_, ?_⟩
  · obtain ⟨k, p0, p1, p2, rfl⟩ := eq_enc6_of_validFrame hvalid
    exact ⟨fun hb => dec6_checksumMismatch fun h => hb (congrArg some h.symm),
      fun hb => dec6_badPrefix fun h => hb (congrArg some h.symm), fun _ => dec6_set_interior⟩
  · obtain ⟨k, v0, v1, rfl⟩ := eq_enc5_of_validFrame hvalid
    exact ⟨fun hb => dec5_checksumMismatch fun h => hb (congrArg some h.symm),
      fun hb => dec5_badPrefix fun h => hb (congrArg some h.symm), fun _ => dec5_set_interior⟩
  · rw [validFrame_iff] at hvalid ⊢
    rw [hvalid, checksum_perm (hperm.cons pfx)]
  · exact ⟨{ kind := 2, command := 0, argHi := 0, argLo := 0 }, { kind := 1, command := 1, argHi := 0, argLo := 0 },
      enc6 0x53 2 0 0 0, by decide⟩

end Sys2Proof
end

section
/-! PROOFS. The receive path: what a step does with a byte of an unfinished chunk and with the one that completes it
(rules R99, R174). -/

namespace Sys2Proof.Machine

open Sys2Proof

/-- A byte before the sixth is stored and counted (rule R99). -/
theorem step_unfinishedChunk {s : State} {b : Byte} {es : List Event} (hlegal : s.cfg.legal = true)
    (hevents : s.events = .rxByte b :: es) (hcount : s.rxCnt.val < 5) :
    step s = .next
      { s with
        events := es
        rxBuf := s.rxBuf.set s.rxCnt.val b
        rxCnt := ⟨s.rxCnt.val + 1, Nat.succ_lt_succ hcount⟩ } := by
  have hnext : s.rxCnt + 1 = ⟨s.rxCnt.val + 1, Nat.succ_lt_succ hcount⟩ :=
    Fin.ext (Fin.val_add_one_of_lt' (Nat.succ_lt_succ hcount))
  rw [step_event hlegal hevents, ← hnext]
  exact if_pos hcount

/-- The sixth byte is stored, the count starts again, and the chunk is judged (rule R99). -/
theorem step_completedChunk {s : State} {b : Byte} {es : List Event} (hlegal : s.cfg.legal = true)
    (hevents : s.events = .rxByte b :: es) (hcount : s.rxCnt = 5) :
    step s = judgeChunk { s with events := es, rxBuf := s.rxBuf.set 5 b, rxCnt := 0 } := by
  rw [step_event hlegal hevents]
  simp [runEvent, rxByte, State.storeRx, State.setRxCnt, State.setEvents, hcount]

/-- The verdict on a chunk that decodes is the decoded instruction's meaning (rule R174). -/
theorem judgeChunk_of_decode {s : State} {i : Instr} (h : decode s.cfg.codes s.rxBuf.toList = .instr i) :
    judgeChunk s = exec i s := by
  have hlength : s.rxBuf.toList.length ≠ 5 := by simp
  rw [decode, if_neg hlength] at h
  obtain ⟨f, hframe, hselected⟩ := decodeCommand_eq_instr.1 h
  rw [judgeChunk_frame hframe, dispatch, frameArg, hselected]

/-- Settles O10: the sixth byte has the chunk judged, and the verdict on a chunk that decodes is its instruction. -/
theorem stepRunsTheDecodedCommand : Obligations.StepRunsTheDecodedCommand := by
  unfold Obligations.StepRunsTheDecodedCommand
  intro s b es i hlegal hevents hcount hdecode
  rw [step_completedChunk hlegal hevents hcount]
  exact judgeChunk_of_decode hdecode

/-- Settles O11: a byte before the sixth is counted; the sixth has the chunk judged by `DEC6`. -/
theorem receivedByteFillsTheChunk : Obligations.ReceivedByteFillsTheChunk := by
  unfold Obligations.ReceivedByteFillsTheChunk
  refine fun s b es hlegal hevents => ⟨step_unfinishedChunk hlegal hevents, fun hcount => ⟨fun f hframe => ?_,
    fun e herror => ?_⟩⟩ <;> rw [step_completedChunk hlegal hevents hcount]
  · exact judgeChunk_frame hframe
  · exact judgeChunk_error herror

end Sys2Proof.Machine
end

section
/-! PROOFS. The mean of the window: over exact numbers the arithmetic mean, under binary32 a NaN wherever the window holds
one (rules R112, R119). -/

namespace Sys2Proof.Machine

open Sys2Proof

/-- Settles O34: over exact numbers the loop from 0 is the sum of the window. -/
theorem meanIsTheArithmeticMean : Obligations.MeanIsTheArithmeticMean := by
  unfold Obligations.MeanIsTheArithmeticMean
  intro buf
  have hsum : buf.foldl exactNum.add exactNum.zero = buf.sum := List.sum_eq_foldl.symm
  rw [aggMean, hsum]
  rfl

/-- `+f` of a NaN is a NaN (rule R7). -/
theorem fIsNaN_fAdd {a b : Num32} (h : fIsNaN a = true ∨ fIsNaN b = true) : fIsNaN (fAdd a b) = true := by
  have hnan : (fIsNaN a || fIsNaN b) = true := Bool.or_eq_true_iff.2 h
  rw [fAdd, if_pos hnan, fIsNaN_fNaN]

/-- `/f` of a NaN is a NaN (rule R7). -/
theorem fIsNaN_fDiv {a b : Num32} (h : fIsNaN a = true ∨ fIsNaN b = true) : fIsNaN (fDiv a b) = true := by
  have hnan : (fIsNaN a || fIsNaN b) = true := Bool.or_eq_true_iff.2 h
  rw [fDiv, if_pos hnan, fIsNaN_fNaN]

/-- A NaN that has come into the running sum, or is still to come, is in the sum. -/
theorem fIsNaN_foldl_fAdd {buf : List Num32} {acc : Num32} (h : fIsNaN acc = true ∨ buf.any fIsNaN = true) :
    fIsNaN (buf.foldl fAdd acc) = true := by
  induction buf generalizing acc with
  | nil => simpa using h
  | cons x xs ih =>
    apply ih
    rw [List.any_cons, Bool.or_eq_true, ← or_assoc] at h
    exact h.imp_left fIsNaN_fAdd

/-- Settles O35: the sum is a NaN, and so is its quotient. -/
theorem meanOfANaNIsANaN : Obligations.MeanOfANaNIsANaN := by
  unfold Obligations.MeanOfANaNIsANaN
  exact fun c buf h => fIsNaN_fDiv (.inl (fIsNaN_foldl_fAdd (.inr h)))

end Sys2Proof.Machine
end

section
/-! PROOFS. The elements the median takes from the sorted copy of the window (rules R113, R114, R115). -/

namespace Sys2Proof.Machine

open Sys2Proof

/-- In an ascending sequence no element is less than the one before it (rule R114). -/
theorem lt_false_of_pairwise {α : Type} {N : Config.Numerics α} {srt : List α}
    (h : srt.Pairwise fun y z => N.lt z y = false) {j : Nat} {y z : α} (hy : srt[j]? = some y)
    (hz : srt[j + 1]? = some z) : N.lt z y = false := by
  obtain ⟨hj, rfl⟩ := List.getElem?_eq_some_iff.1 hy
  obtain ⟨hj', rfl⟩ := List.getElem?_eq_some_iff.1 hz
  exact List.pairwise_iff_getElem.1 h j (j + 1) hj hj' j.lt_succ_self

/-- Where `<f` orders the window the sorted copy the median reads is ascending, neighbour by neighbour (rule R114). -/
theorem sortWindow_ascending {α : Type} [DecidableEq α] {N : Config.Numerics α} {n : Nat} {buf : List α}
    (h : orders N buf = true) (j : Nat) (y z : α) (hy : (sortWindow N n buf)[j]? = some y)
    (hz : (sortWindow N n buf)[j + 1]? = some z) : N.lt z y = false := by
  obtain ⟨-, hweak⟩ := Bool.and_eq_true_iff.1 h
  exact lt_false_of_pairwise (sortWindow_pairwise hweak) hy hz

/-- The median of an odd window is the middle element (rule R115). -/
theorem medianOf_odd {α : Type} {N : Config.Numerics α} {c : Nat} {srt : List α} (hc : c % 2 = 1)
    (hlen : srt.length = c) : some (medianOf N c srt) = srt[c / 2]? := by
  have hmiddle : c / 2 < srt.length := by omega
  rw [medianOf, if_pos hc, List.getElem?_eq_getElem hmiddle, List.getD_eq_getElem _ _ hmiddle]

/-- The median of an even window is the mean of the elements at `C/2` and `C/2 + 1` (rule R115). -/
theorem medianOf_even {α : Type} {N : Config.Numerics α} {c : Nat} {srt : List α} (hc : c % 2 = 0) {x y : α}
    (hx : srt[c / 2]? = some x) (hy : srt[c / 2 + 1]? = some y) :
    medianOf N c srt = N.div (N.add x y) N.two := by
  simp [medianOf, hc, hx, hy]

/-- A pattern is its sign and its magnitude. -/
theorem num32_ext {x y : Num32} (hneg : fNeg x = fNeg y) (hmag : fMag x = fMag y) : x = y := by
  apply BitVec.eq_of_toNat_eq
  simp only [fNeg, fMag, decide_eq_decide] at hneg hmag
  omega

/-- Two different numbers in one place of the number line are the two zeros (rule R114). -/
theorem zeros_of_fKey_eq {x y : Num32} (hkey : fKey x = fKey y) (hne : x ≠ y) :
    fIsZero x = true ∧ fIsZero y = true ∧ fNeg x ≠ fNeg y := by
  have hneg : fNeg x ≠ fNeg y := by
    intro hneg
    refine hne (num32_ext hneg ?_)
    rw [fKey, fKey, hneg] at hkey
    split at hkey <;> omega
  have hmag : fMag x = 0 ∧ fMag y = 0 := by
    have hy : fNeg y = !fNeg x := Bool.eq_not.2 hneg.symm
    cases hx : fNeg x <;> simp [fKey, hx, hy] at hkey <;> omega
  exact ⟨decide_eq_true hmag.1, decide_eq_true hmag.2, hneg⟩

/-- A window that holds two zeros of different signs holds both zeros. -/
theorem bothZeros_of_mem {buf : List Num32} {x y : Num32} (hx : x ∈ buf) (hy : y ∈ buf) (hx0 : fIsZero x = true)
    (hy0 : fIsZero y = true) (hneg : fNeg x ≠ fNeg y) : bothZeros buf = true := by
  simp only [bothZeros, Bool.and_eq_true, List.any_eq_true, Bool.not_eq_true']
  cases hsign : fNeg x with
  | true => exact ⟨⟨x, hx, hx0, hsign⟩, y, hy, hy0, by simpa [hsign] using hneg.symm⟩
  | false => exact ⟨⟨y, hy, hy0, by simpa [hsign] using hneg.symm⟩, x, hx, hx0, hsign⟩

/-- Under binary32 different numbers that compare equal are the two zeros, so a window with one sign of zero and no NaN has
no ties (rule R114). -/
theorem hasTies_binary32 {buf : List Num32} (hnan : buf.any fIsNaN = false) (hzeros : bothZeros buf = false) :
    hasTies binary32 buf = false := by
  rw [Bool.eq_false_iff] at hzeros ⊢
  intro hties
  simp only [hasTies, List.any_eq_true, Bool.and_eq_true, decide_eq_true_eq, Bool.not_eq_true'] at hties
  obtain ⟨x, hx, y, hy, ⟨hne, hlt⟩, hgt⟩ := hties
  rw [List.any_eq_false] at hnan
  have hxnan := Bool.eq_false_iff.2 (hnan x hx)
  have hynan := Bool.eq_false_iff.2 (hnan y hy)
  have hkey : fKey x = fKey y := by
    have hle : ¬ fKey x < fKey y := of_decide_eq_false ((fLt_eq hxnan hynan).symm.trans hlt)
    have hge : ¬ fKey y < fKey x := of_decide_eq_false ((fLt_eq hynan hxnan).symm.trans hgt)
    omega
  obtain ⟨hx0, hy0, hneg⟩ := zeros_of_fKey_eq hkey hne
  exact hzeros (bothZeros_of_mem hx hy hx0 hy0 hneg)

/-- With one sign of zero and no NaN the sequence the median reads is the one sorted copy (rule R114). -/
theorem sortWindow_binary32 {buf : List Num32} (hnan : buf.any fIsNaN = false) (hzeros : bothZeros buf = false)
    (n : Nat) : sortWindow binary32 n buf = sortAsc binary32 buf := by
  simp [sortWindow, hasTies_binary32 hnan hzeros]

/-- Settles O32: the sequence is the sorted copy at the median's own draw. -/
theorem medianTakesTheRulesElements : Obligations.MedianTakesTheRulesElements := by
  unfold Obligations.MedianTakesTheRulesElements
  intro nan n c buf hlen hnan
  have horders : orders binary32 buf = true := by rw [orders_binary32, hnan, Bool.not_false]
  have hperm := sortWindow_perm binary32 n buf
  rw [aggMedian_ordered horders]
  exact ⟨sortWindow binary32 n buf, hperm, sortWindow_ascending horders, fun hzeros => sortWindow_binary32 hnan hzeros n,
    fun hodd => medianOf_odd hodd (hperm.length_eq.trans hlen), fun heven _ _ _ => medianOf_even heven⟩

end Sys2Proof.Machine
end

section
/-! PROOFS. What one push writes and what it answers (rule R110). -/

namespace Sys2Proof.Machine

open Sys2Proof

/-- The window after the write (rule R110). -/
@[simp] theorem pushState_buf (k : Kind) (x : Number) (s : State) :
    ((pushState k x s).regs k).buf = pushSlot (s.regs k).cur x (s.regs k).buf := by
  simp [pushState, State.regs]

/-- A push of a sensor with the moving average answers the mean of the new window (rules R110, R112). -/
theorem push_mean {k : Kind} {s : State} (h : s.filter k = .mean) (x : Number) :
    push k x s =
      (aggMean (cfgNum s.cfg) (s.cap k) (pushSlot (s.regs k).cur x (s.regs k).buf), pushState k x s) := by
  simp [push, h]

/-- A push of a sensor with the median answers that of the new window and counts one draw (rules R110, R113). -/
theorem push_median {k : Kind} {s : State} (h : s.filter k = .median) (x : Number) :
    push k x s =
      (aggMedian (cfgNum s.cfg) (s.cfg.num.cast (Config.medianNaN s.free)) s.free (s.cap k)
        (pushSlot (s.regs k).cur x (s.regs k).buf), (pushState k x s).drawFree) := by
  simp [push, h]

/-- A block of binary32 numbers orders exactly the windows without a NaN. -/
theorem orders_cfgNum_binary32 {c : Cfg} (h : c.num = .binary32) (w : List Number) :
    orders (cfgNum c) w = !w.any fun y => fIsNaN y.toB32 := by
  simp only [cfgNum, h, orders_withQ10, orders_lift toB32_b32, orders_binary32, List.any_map, Function.comp_def]

/-- A block of exact numbers orders every window. -/
theorem orders_cfgNum_exact {c : Cfg} (h : c.num = .exact) (w : List Number) : orders (cfgNum c) w = true := by
  simp only [cfgNum, h, orders_withQ10, orders_lift toRat_exact, orders_exactNum]

/-- Settles O29: the state is the one after the write, and the answer the aggregate of its window; where `<f` orders the
window the median is read from the window's sorted copy. -/
theorem pushOverwritesOneSlot : Obligations.PushOverwritesOneSlot := by
  unfold Obligations.PushOverwritesOneSlot
  intro k x s N r c w sensor'
  refine ⟨fun hmean => push_mean hmean x, fun hmedian => ?_⟩
  have hpush : push k x s =
      (aggMedian N (s.cfg.num.cast (Config.medianNaN s.free)) s.free c w, (pushState k x s).drawFree) :=
    push_median hmedian x
  rw [hpush]
  refine ⟨rfl, fun hordered => ?_, fun hopen => aggMedian_open hopen _ _ _, fun hnum => ?_,
    fun hnum => orders_cfgNum_exact hnum w⟩
  · exact ⟨sortWindow N s.free w, sortWindow_perm N s.free w, sortWindow_ascending hordered,
      aggMedian_ordered hordered _ _ _⟩
  · rw [orders_cfgNum_binary32 hnum, Bool.not_eq_true']

end Sys2Proof.Machine
end

section
/-! PROOFS. What each calibration command does where its sensor is present, and the commands without a meaning (rules R139 to
R157). -/

namespace Sys2Proof.Machine

open Sys2Proof

/-- A command of a present sensor has the effect of its pair (rule R174). -/
theorem exec_ofCommand_present {k : Kind} {s : State} (h : (s.cfg.sensor.get k).present = true) (m : Command)
    (arg : Half) : exec (Instr.ofCommand k m arg) s = .next (commandEffect k m arg s) := by
  rw [exec_ofCommand, onPresent_present h]

/-- A command whose effect is `noEffect` changes nothing, whether its sensor is present or not (rule R139). -/
theorem exec_of_noEffect {i : Instr} {k : Kind} {s : State} (h : exec i s = .next (onPresent k noEffect s)) :
    exec i s = .next s := by
  rw [h, onPresent_noEffect]

/-- The two parts of one `RAW(s)` invocation belong together (rules R9, U11). -/
theorem rawAnswered_afterRaw (k : Kind) (s : State) : rawAnswered k (s.rawValue k) s (s.afterRaw k) := by
  cases h : s.rawAns.get k with
  | nil =>
    obtain ⟨hvalue, hafter⟩ := State.afterRaw_free h
    exact .inr ⟨h, hvalue, hafter⟩
  | cons v rest =>
    obtain ⟨hvalue, hafter⟩ := State.afterRaw_scripted h
    exact .inl ⟨rest, by rw [h, hvalue], hafter⟩

/-- Settles O15: each of the six runs `noEffect`. -/
theorem temperatureCommandsChangeNothing : Obligations.TemperatureCommandsChangeNothing := by
  unfold Obligations.TemperatureCommandsChangeNothing
  intro arg s
  have hnone {i : Instr} (h : exec i s = .next (onPresent .temp noEffect s)) : exec i s = .next s := exec_of_noEffect h
  exact ⟨hnone rfl, hnone rfl, hnone rfl, hnone rfl, hnone rfl, hnone rfl⟩

/-- Settles O16: each of the four runs `noEffect`. -/
theorem tdsCommandsWithoutMeaningChangeNothing : Obligations.TdsCommandsWithoutMeaningChangeNothing := by
  unfold Obligations.TdsCommandsWithoutMeaningChangeNothing
  intro arg s
  have hnone {i : Instr} (h : exec i s = .next (onPresent .tds noEffect s)) : exec i s = .next s := exec_of_noEffect h
  exact ⟨hnone rfl, hnone rfl, hnone rfl, hnone rfl⟩

/-- `PH.RESET` in basic mode restores the offset (rule R146). -/
theorem restorePh_basic {s : State} (h : s.phMode = .basic) :
    restorePh s = { s with phZeroOffset := (cfgNum s.cfg).zero } := by
  simp [restorePh, h, State.setPhZeroOffset]

/-- `PH.RESET` in advanced mode restores the three references (rule R146). -/
theorem restorePh_advanced {s : State} (h : s.phMode = .advanced) :
    restorePh s = { s with phLow := s.cfg.ph.defLow, phMid := s.cfg.ph.defMid, phHigh := s.cfg.ph.defHigh } := by
  simp [restorePh, h, State.setPhLow, State.setPhMid, State.setPhHigh]

/-- Settles O18: the effect of the command is `restorePh`, which looks at the mode. -/
theorem phResetRestoresTheCurrentMode : Obligations.PhResetRestoresTheCurrentMode := by
  unfold Obligations.PhResetRestoresTheCurrentMode
  intro arg s hpresent
  have hrun : exec (.phReset arg) s = .next (restorePh s) := exec_ofCommand_present (k := .ph) hpresent .reset arg
  rw [hrun]
  exact ⟨fun hmode => by rw [restorePh_basic hmode], fun hmode => by rw [restorePh_advanced hmode]⟩

/-- Settles O19: the sample is the one the command's `RAW` invocation is answered. -/
theorem phCalibrateSetsTheOffset : Obligations.PhCalibrateSetsTheOffset := by
  unfold Obligations.PhCalibrateSetsTheOffset
  intro arg s hpresent
  exact ⟨_, _, rawAnswered_afterRaw .ph s, exec_ofCommand_present (k := .ph) hpresent .calibrate arg⟩

/-- Settles O20: the three commands record the same answer, each in its own register. -/
theorem phReferenceCommandsRecordTheVoltage : Obligations.PhReferenceCommandsRecordTheVoltage := by
  unfold Obligations.PhReferenceCommandsRecordTheVoltage
  intro arg s hpresent
  have hrun := exec_ofCommand_present (k := .ph) hpresent
  exact ⟨_, _, rawAnswered_afterRaw .ph s, hrun .calLow arg, hrun .calMid arg, hrun .calHigh arg⟩

/-- Settles O22: the effect of the command writes `tds_probe` alone. -/
theorem tdsResetRestoresTheProbe : Obligations.TdsResetRestoresTheProbe := by
  unfold Obligations.TdsResetRestoresTheProbe
  intro arg s hpresent
  exact exec_ofCommand_present (k := .tds) hpresent .reset arg

/-- Settles O23: the sample is the one the command's `RAW` invocation is answered, and the formula is `tdsProbeFor`. -/
theorem tdsCalibrateSolvesForTheProbe : Obligations.TdsCalibrateSolvesForTheProbe := by
  unfold Obligations.TdsCalibrateSolvesForTheProbe
  intro arg s hpresent
  exact ⟨_, _, rawAnswered_afterRaw .tds s, exec_ofCommand_present (k := .tds) hpresent .calibrate arg⟩

end Sys2Proof.Machine
end

section
/-! PROOFS. A command writes the calibration of its own sensor alone, and the same calibration when it is sent again (rules
R158, R221). -/

namespace Sys2Proof.Machine

open Sys2Proof

/-- A command samples its own sensor once, or not at all (rule R158). -/
theorem commandEffect_rawLog (k : Kind) (m : Command) (arg : Half) (s : State) :
    (commandEffect k m arg s).rawLog = s.rawLog ∨ (commandEffect k m arg s).rawLog = s.rawLog ++ [k] := by
  cases k with
  | temp => exact .inl rfl
  | ph =>
    cases m with
    | reset =>
      left
      simp only [commandEffect, restorePh]
      split <;> rfl
    | calibrate | calLow | calMid | calHigh => exact .inr (State.afterRaw_rawLog .ph s)
    | setMode => exact .inl rfl
  | tds =>
    cases m with
    | calibrate => exact .inr (State.afterRaw_rawLog .tds s)
    | reset | calLow | calMid | calHigh | setMode => exact .inl rfl

/-- Settles O25: what belongs to no sensor is kept, what belongs to another is untouched, and the command samples its own
sensor at most once. -/
theorem commandIsIsolated : Obligations.CommandIsIsolated := by
  unfold Obligations.CommandIsIsolated
  intro k m arg s t h
  obtain ⟨hcfg, hrxBuf, hrxCnt, htx, hsensor, htemp, hevents⟩ := exec_ofCommand_keeps h
  rw [exec_ofCommand] at h
  cases h
  have hother {j : Kind} (hj : j ≠ k) : Untouched j s (onPresent k (commandEffect k m arg) s) :=
    .onPresent (.commandEffect hj m arg s)
  refine ⟨hsensor, htx, hrxBuf, hrxCnt, hcfg, hevents, htemp, fun hk => (hother hk.symm).ph rfl, fun hk => ?_,
    fun j hj => (hother hj).answers, ?_⟩
  · obtain ⟨hprobe, -⟩ := (hother hk.symm).tds rfl
    exact hprobe
  · unfold onPresent
    split
    · exact commandEffect_rawLog k m arg s
    · exact .inl rfl

/-- `PH.RESET` takes no sample (rule R146). -/
theorem restorePh_rawAns (s : State) : (restorePh s).rawAns = s.rawAns := by
  cases h : s.phMode with
  | basic => rw [restorePh_basic h]
  | advanced => rw [restorePh_advanced h]

/-- `PH.RESET` sent again restores the same registers (rule R146). -/
theorem restorePh_twice (s : State) : restorePh (restorePh s) = restorePh s := by
  cases h : s.phMode with
  | basic => rw [restorePh_basic h, restorePh_basic]; exact h
  | advanced => rw [restorePh_advanced h, restorePh_advanced]; exact h

/-- `PH.SETMODE` sent again selects the same mode (rule R151). -/
theorem modeAfter_twice (arg : Half) (m : PhMode) : modeAfter arg (modeAfter arg m) = modeAfter arg m := by
  unfold modeAfter
  cases argMode arg <;> rfl

/-- The next answers of a sensor after a command to it: those scripted, or those behind the first. -/
theorem commandEffect_rawAns (k : Kind) (m : Command) (arg : Half) (s : State) :
    (commandEffect k m arg s).rawAns = s.rawAns ∨ (commandEffect k m arg s).rawAns = (s.afterRaw k).rawAns := by
  cases k with
  | temp => exact .inl rfl
  | ph =>
    cases m with
    | reset => exact .inl (restorePh_rawAns s)
    | calibrate | calLow | calMid | calHigh => exact .inr rfl
    | setMode => exact .inl rfl
  | tds =>
    cases m with
    | calibrate => exact .inr rfl
    | reset | calLow | calMid | calHigh | setMode => exact .inl rfl

/-- If the front end answers the same twice, a sample after a command is answered as one before it. -/
theorem rawValue_commandEffect {k : Kind} {s : State} {v : Number} {rest : List Number}
    (h : s.rawAns.get k = v :: v :: rest) (m : Command) (arg : Half) :
    (commandEffect k m arg s).rawValue k = s.rawValue k := by
  obtain ⟨hvalue, hafter⟩ := State.afterRaw_scripted h
  rw [hvalue]
  obtain he | he := commandEffect_rawAns k m arg s
  · exact (State.afterRaw_scripted (he ▸ h)).1
  · refine (State.afterRaw_scripted (rest := rest) ?_).1
    rw [he, hafter, PerKind.get_set_same]

/-- A command of an unchanged signal leaves the calibration it left before: the value it writes depends on no register it
writes, but for `ph_mode` (rule R221). -/
theorem calibration_commandEffect_twice {k : Kind} {m : Command} {arg : Half} {s : State}
    (h : (commandEffect k m arg s).rawValue k = s.rawValue k) :
    calibration (commandEffect k m arg (commandEffect k m arg s)) = calibration (commandEffect k m arg s) := by
  cases k with
  | temp => rfl
  | ph =>
    cases m with
    | reset => exact congrArg calibration (restorePh_twice s)
    | calibrate | calLow | calMid | calHigh =>
      simp only [commandEffect] at h
      simp [commandEffect, calibration, h]
    | setMode => simp [commandEffect, calibration, modeAfter_twice]
  | tds =>
    cases m with
    | calibrate =>
      simp only [commandEffect] at h
      simp [commandEffect, calibration, h]
    | reset | calLow | calMid | calHigh | setMode => rfl

/-- Settles O26: both runs find the same answer waiting, and where the sensor is absent neither does anything. -/
theorem commandsAreIdempotent : Obligations.CommandsAreIdempotent := by
  unfold Obligations.CommandsAreIdempotent
  intro k m arg v rest s t u hanswers ht hu
  rw [exec_ofCommand] at ht hu
  cases ht
  cases hu
  obtain ⟨hcfg, -⟩ := onPresent_commandEffect_keeps k m arg s
  cases hp : s.present k with
  | false => rw [onPresent_absent hp, onPresent_absent hp]
  | true =>
    have hp' : (commandEffect k m arg s).present k = true := by
      rw [onPresent_present hp] at hcfg
      rw [State.present, hcfg, ← State.present, hp]
    rw [onPresent_present hp, onPresent_present hp']
    exact calibration_commandEffect_twice (rawValue_commandEffect hanswers m arg)

end Sys2Proof.Machine
end

section
/-! PROOFS. The share of an unfiltered sensor in a tick (rules R171, R175). -/

namespace Sys2Proof.Machine

open Sys2Proof

/-- One sensor's share of a tick writes no other sensor's registers (rule R177). -/
theorem tickSensor_keeps_other {j k : Kind} (h : j ≠ k) {s t : State} (ht : tickSensor k s = .next t) :
    t.sensor.get j = s.sensor.get j := by
  obtain ⟨-, rfl⟩ | ⟨-, ans, v, b, c, n, q, rfl, -, -⟩ := tickSensor_cases ht
  · rfl
  · exact PerKind.get_set_other _ _ h

/-- The share of an unfiltered sensor: one sample, its model's value stored, and the frame of `Q10` of that value (rules
R170, R171, R175). -/
theorem tickSensor_unfiltered {k : Kind} {s t : State} (hpresent : s.present k = true) (hfilter : s.filter k = .none)
    (h : tickSensor k s = .next t) :
    t.sensor.get k = { s.sensor.get k with value := transform k (s.rawValue k) s } ∧
      t.tx = s.tx ++ encodeTelemetry s.cfg.codes k ((cfgNum s.cfg).q10 (transform k (s.rawValue k) s)) := by
  have hfilter' : (updateSensor k s).filter k = .none := by simpa [update_state, State.filter] using hfilter
  have hpresent' : (updateSensor k s).present k = true := by simpa [update_state, State.present] using hpresent
  rw [tickSensor_eq, if_pos hpresent, read_unfiltered hfilter', onPresent_present hpresent', emitTelemetry_eq] at h
  cases h
  simp [update_state, State.regs]

/-- Settles O46: the model of Temperature is the identity, and the shares of PH and TDS write neither the registers of
Temperature nor a byte before their own frames. -/
theorem tickReportsTheRawTemperature : Obligations.TickReportsTheRawTemperature := by
  unfold Obligations.TickReportsTheRawTemperature
  intro s es r rest hlegal hevents hpresent hfilter hanswers
  obtain ⟨t, ht⟩ := tick_next (s.setEvents es)
  obtain ⟨u, v, hTemp, hPh, hTds⟩ := tick_cases ht
  obtain ⟨hraw, -⟩ := State.afterRaw_scripted (k := .temp) (s := s.setEvents es) hanswers
  obtain ⟨hregs, htx⟩ := tickSensor_unfiltered (k := .temp) (s := s.setEvents es) hpresent hfilter hTemp
  have hvalue : transform .temp ((s.setEvents es).rawValue .temp) (s.setEvents es) = r := hraw
  rw [hvalue] at hregs htx
  obtain ⟨a, hv, -⟩ := tickSensor_appends hPh
  obtain ⟨b, ht', -⟩ := tickSensor_appends hTds
  refine ⟨t, (step_event hlegal hevents).trans ht, ?_, a ++ b, ?_⟩
  · calc
      t.sensor.temp = v.sensor.temp := tickSensor_keeps_other (j := .temp) (by decide) hTds
      _ = u.sensor.temp := tickSensor_keeps_other (j := .temp) (by decide) hPh
      _ = _ := hregs
  · rw [ht', hv, htx, ← List.append_assoc]
    rfl

end Sys2Proof.Machine
end

section
/-! PROOFS. The calibration laws over exact numbers (rule R160). -/

namespace Sys2Proof.Machine

open Sys2Proof

/-- Up to the middle reference the lower line answers (rule R133). -/
theorem xformPhAdv_exact_lower {mid v : ℚ} (h : v ≤ mid) (low high : ℚ) :
    xformPhAdv exactNum low mid high v = 7 - 3 / (low - mid) * (v - mid) :=
  if_neg (by simpa [Config.Numerics.gt, exactNum] using h)

/-- Above it the upper line answers (rule R133). -/
theorem xformPhAdv_exact_upper {mid v : ℚ} (h : mid < v) (low high : ℚ) :
    xformPhAdv exactNum low mid high v = 7 - 3 / (mid - high) * (v - mid) :=
  if_pos (by simpa [Config.Numerics.gt, exactNum] using h)

/-- Settles O40: each model, at the calibrated point, undoes the arithmetic of its calibration. -/
theorem calibrationLawsOverExactNumbers : Obligations.CalibrationLawsOverExactNumbers := by
  unfold Obligations.CalibrationLawsOverExactNumbers
  refine ⟨fun k v hk => ?_, fun low mid high hlow hhigh => ?_, fun c temp v arg hpoly hcomp hfactor => ?_⟩
  · show k * (v + (7 / k - v)) = 7
    field_simp
    ring
  · have hlower : low - mid ≠ 0 := (sub_neg.2 hlow).ne
    have hupper : mid - high ≠ 0 := (sub_neg.2 hhigh).ne
    rw [xformPhAdv_exact_lower hlow.le, xformPhAdv_exact_lower le_rfl, xformPhAdv_exact_upper hhigh]
    refine ⟨?_, ?_, ?_⟩
    · rw [div_mul_cancel₀ _ hlower]
      norm_num
    · rw [sub_self, mul_zero, sub_zero]
    · rw [← neg_sub mid high, mul_neg, div_mul_cancel₀ _ hupper]
      norm_num
  · show tdsPoly exactNum c v / tdsComp exactNum c temp *
      (((arg.toNat : ℚ) / 10 / c.factor * tdsComp exactNum c temp) / tdsPoly exactNum c v) * c.factor = _
    field_simp

end Sys2Proof.Machine
end

section
/-! PROOFS. How far the rounding of binary32 moves a number, and what it moves to 2.0 (rule R7, decision D6). Magnitudes
are counted in units of `2 ^ -150`, in which every finite number is a natural number. -/

namespace Sys2Proof.Machine

open Sys2Proof

/-- `roundShift` is off by at most half of `2 ^ d`. -/
theorem roundShift_near (m d : Nat) :
    2 * (roundShift m d * 2 ^ d) ≤ 2 * m + 2 ^ d ∧ 2 * m ≤ 2 * (roundShift m d * 2 ^ d) + 2 ^ d := by
  have hdiv := Nat.div_add_mod' m (2 ^ d)
  have hrem := Nat.mod_lt m (Nat.two_pow_pos d)
  simp only [roundShift]
  split
  · rw [Nat.add_mul]
    omega
  · omega

/-- An even number of `2 ^ d` at most half of one away is the rounded quotient: a tie goes to it. -/
theorem roundShift_eq_of_even {m d n : Nat} (heven : n % 2 = 0) (hlo : 2 * (n * 2 ^ d) ≤ 2 * m + 2 ^ d)
    (hhi : 2 * m ≤ 2 * (n * 2 ^ d) + 2 ^ d) : roundShift m d = n := by
  have hpos := Nat.two_pow_pos d
  have hdiv := Nat.div_add_mod' m (2 ^ d)
  have hrem := Nat.mod_lt m hpos
  have hle : m / 2 ^ d ≤ n := by
    by_contra hlt
    have := Nat.mul_le_mul_right (2 ^ d) (Nat.lt_of_not_le hlt)
    rw [Nat.succ_mul] at this
    omega
  have hge : n ≤ m / 2 ^ d + 1 := by
    by_contra hlt
    have := Nat.mul_le_mul_right (2 ^ d) (Nat.lt_of_not_le hlt)
    rw [Nat.succ_mul, Nat.succ_mul] at this
    omega
  simp only [roundShift]
  obtain hq | hq : m / 2 ^ d = n ∨ n = m / 2 ^ d + 1 := by omega
  · rw [hq] at hdiv ⊢
    rw [if_neg (by omega)]
  · rw [hq, Nat.add_mul] at hlo
    rw [if_pos (by omega), hq]

/-- `m * 2 ^ e` rounded to a multiple of `2 ^ (q + 1)`, counted in it: the significand `roundMag` computes. -/
def roundUnits (m e q : Nat) : Nat := if e ≤ q + 1 then roundShift m (q + 1 - e) else m * 2 ^ (e - (q + 1))

/-- The exponent `roundMag` computes for `m * 2 ^ e / 2 ^ 150`: the unit of the result is `2 ^ (roundExp m e + 1)`. -/
def roundExp (m e : Nat) : Nat := Nat.log2 m + 126 + e - 150

/-- `roundMag` packs the exponent and the significand, up to the infinity (rule R7). -/
theorem roundMag_eq {m : Nat} (hm : m ≠ 0) (e : Nat) :
    roundMag m e 150 = min (roundExp m e * 2 ^ 23 + roundUnits m e (roundExp m e)) infMag := by
  have hguard (q : Nat) : 149 + e ≤ q + 150 ↔ e ≤ q + 1 := by omega
  have hdown (q : Nat) : q + 150 - (149 + e) = q + 1 - e := by omega
  have hup (q : Nat) : 149 + e - (q + 150) = e - (q + 1) := by omega
  rw [roundMag, if_neg hm]
  simp only [hguard, hdown, hup]
  rfl

/-- Where the unit is no finer than `2 ^ e` the significand is a rounded quotient. -/
theorem roundUnits_of_add {e d q : Nat} (h : q + 1 = e + d) (m : Nat) : roundUnits m e q = roundShift m d := by
  rw [roundUnits, if_pos (by omega), show q + 1 - e = d by omega]

/-- Where the unit is finer the significand is exact. -/
theorem roundUnits_exact {e q : Nat} (h : q + 1 < e) (m : Nat) : roundUnits m e q * 2 ^ (q + 1) = m * 2 ^ e := by
  rw [roundUnits, if_neg (by omega), Nat.mul_assoc, ← Nat.pow_add, show e - (q + 1) + (q + 1) = e by omega]

/-- A significand is off by at most half a unit (rule R7: one rounding, to nearest). -/
theorem roundUnits_near (m e q : Nat) :
    roundUnits m e q * 2 ^ (q + 1) ≤ m * 2 ^ e + 2 ^ q ∧ m * 2 ^ e ≤ roundUnits m e q * 2 ^ (q + 1) + 2 ^ q := by
  obtain h | h := Nat.lt_or_ge (q + 1) e
  · rw [roundUnits_exact h]
    exact ⟨Nat.le_add_right .., Nat.le_add_right ..⟩
  · obtain ⟨d, hd⟩ := Nat.exists_eq_add_of_le h
    have hunit : 2 ^ (q + 1) = 2 ^ d * 2 ^ e := by rw [hd, Nat.pow_add, Nat.mul_comm]
    have hhalf : 2 ^ (q + 1) = 2 * 2 ^ q := Nat.pow_succ'
    obtain ⟨hlo, hhi⟩ := roundShift_near m d
    have hlo := Nat.mul_le_mul_right (2 ^ e) hlo
    have hhi := Nat.mul_le_mul_right (2 ^ e) hhi
    rw [Nat.add_mul, Nat.mul_assoc, Nat.mul_assoc, Nat.mul_assoc, ← hunit] at hlo hhi
    rw [roundUnits_of_add hd]
    omega

/-- An even number of units at most half a unit away is the significand: a tie goes to it. -/
theorem roundUnits_eq_of_even {m e q n : Nat} (heven : n % 2 = 0) (hlo : n * 2 ^ (q + 1) ≤ m * 2 ^ e + 2 ^ q)
    (hhi : m * 2 ^ e ≤ n * 2 ^ (q + 1) + 2 ^ q) : roundUnits m e q = n := by
  have hhalf : 2 ^ (q + 1) = 2 * 2 ^ q := Nat.pow_succ'
  obtain h | h := Nat.lt_or_ge (q + 1) e
  · have hpos := Nat.two_pow_pos q
    rw [← roundUnits_exact h, hhalf] at hlo hhi
    have hle : n < roundUnits m e q + 1 := by
      by_contra hlt
      nlinarith
    have hge : roundUnits m e q < n + 1 := by
      by_contra hlt
      nlinarith
    omega
  · obtain ⟨d, hd⟩ := Nat.exists_eq_add_of_le h
    have hunit : 2 ^ (q + 1) = 2 ^ d * 2 ^ e := by rw [hd, Nat.pow_add, Nat.mul_comm]
    rw [roundUnits_of_add hd]
    apply roundShift_eq_of_even heven <;> apply Nat.le_of_mul_le_mul_right _ (Nat.two_pow_pos e) <;>
      rw [Nat.add_mul, Nat.mul_assoc, Nat.mul_assoc, Nat.mul_assoc, ← hunit] <;> omega

/-- The exponent is that of the binade `m * 2 ^ e` lies in, cut at 0. -/
theorem roundExp_binade {m : Nat} (hm : m ≠ 0) (e : Nat) :
    m * 2 ^ e < 2 ^ (roundExp m e + 25) ∧ (roundExp m e = 0 ∨ 2 ^ (roundExp m e + 24) ≤ m * 2 ^ e) := by
  have hlo := Nat.mul_le_mul_right (2 ^ e) (Nat.log2_self_le hm)
  have hhi := Nat.mul_lt_mul_of_pos_right (Nat.lt_log2_self (n := m)) (Nat.two_pow_pos e)
  rw [← Nat.pow_add] at hlo hhi
  unfold roundExp
  refine ⟨hhi.trans_le (Nat.pow_le_pow_right (by decide) (by omega)), ?_⟩
  by_cases h : Nat.log2 m + e ≤ 24
  · left
    omega
  · right
    rwa [show Nat.log2 m + 126 + e - 150 + 24 = Nat.log2 m + e by omega]

/-- The significand of a rounded number has 24 bits, or is the next power of two; it has fewer only where the exponent
is cut. -/
theorem roundUnits_range {m : Nat} (hm : m ≠ 0) (e : Nat) :
    roundUnits m e (roundExp m e) ≤ 2 ^ 24 ∧ (roundExp m e = 0 ∨ 2 ^ 23 ≤ roundUnits m e (roundExp m e)) := by
  obtain ⟨hlt, hge⟩ := roundExp_binade hm e
  obtain ⟨hlo, hhi⟩ := roundUnits_near m e (roundExp m e)
  generalize roundUnits m e (roundExp m e) = u at *
  generalize roundExp m e = q at *
  have hpos := Nat.two_pow_pos q
  rw [Nat.pow_add] at hlt hge
  rw [Nat.pow_succ] at hlo hhi
  constructor
  · by_contra h
    nlinarith
  · refine hge.imp_right fun hge => ?_
    by_contra h
    nlinarith

/-- The magnitude of a finite number in units of `2 ^ -150`. -/
def magUnits (x : Num32) : Nat := fSig x * 2 ^ fExp x

/-- The magnitude read back from an exponent and a significand, the carry into the next binade included. -/
theorem magUnits_eq {x : Num32} {q u : Nat} (hmag : fMag x = q * 2 ^ 23 + u) (hle : u ≤ 2 ^ 24)
    (hnorm : q = 0 ∨ 2 ^ 23 ≤ u) : magUnits x = u * 2 ^ (q + 1) := by
  unfold magUnits fSig fExp
  by_cases hsub : u < 2 ^ 23
  · have hq : q = 0 := by omega
    subst hq
    rw [hmag, if_pos (by omega)]
    simp only [show (0 * 2 ^ 23 + u) / 2 ^ 23 = 0 by omega]
    simp
  · rw [hmag, if_neg (by omega)]
    by_cases hcarry : u = 2 ^ 24
    · subst hcarry
      rw [show (q * 2 ^ 23 + 2 ^ 24) / 2 ^ 23 = q + 2 by omega, show (q * 2 ^ 23 + 2 ^ 24) % 2 ^ 23 = 0 by omega,
        show max 1 (q + 2) = q + 1 + 1 by omega, Nat.pow_succ 2 (q + 1)]
      ring
    · rw [show (q * 2 ^ 23 + u) / 2 ^ 23 = q + 1 by omega, show max 1 (q + 1) = q + 1 by omega,
        show (q * 2 ^ 23 + u) % 2 ^ 23 + 2 ^ 23 = u by omega]

/-- Whatever lies at most `2 ^ -24` from 2.0 is rounded to it: the tie below 2.0 goes to its even pattern. -/
theorem roundMag_two {m e : Nat} (hlo : 2 ^ 151 ≤ m * 2 ^ e + 2 ^ 126) (hhi : m * 2 ^ e ≤ 2 ^ 151 + 2 ^ 126) :
    roundMag m e 150 = 0x40000000 := by
  have hm : m ≠ 0 := by
    rintro rfl
    omega
  obtain ⟨hlt, hge⟩ := roundExp_binade hm e
  have hexp : roundExp m e = 126 ∨ roundExp m e = 127 := by
    have hlow : 126 ≤ roundExp m e := by
      by_contra hgt
      have := Nat.pow_le_pow_right (n := 2) (by decide) (show roundExp m e + 25 ≤ 150 by omega)
      omega
    have hhigh : roundExp m e ≤ 127 := by
      by_contra hgt
      have := Nat.pow_le_pow_right (n := 2) (by decide) (show 152 ≤ roundExp m e + 24 by omega)
      omega
    omega
  rw [roundMag_eq hm]
  obtain hq | hq := hexp <;> rw [hq]
  · rw [roundUnits_eq_of_even (n := 2 ^ 24) (by decide) (by omega) (by omega)]
    rfl
  · rw [roundUnits_eq_of_even (n := 2 ^ 23) (by decide) (by omega) (by omega)]
    rfl

/-- A magnitude of at most 2.0 is rounded to one at most `2 ^ -24` away, half a unit of the numbers from 1 to 2. -/
theorem roundMag_near {m e : Nat} (h : m * 2 ^ e ≤ 2 ^ 151) {x : Num32} (hx : fMag x = roundMag m e 150) :
    magUnits x ≤ m * 2 ^ e + 2 ^ 126 ∧ m * 2 ^ e ≤ magUnits x + 2 ^ 126 ∧ fMag x ≤ 0x40000000 := by
  by_cases hm : m = 0
  · rw [hm, roundMag_zero] at hx
    simp [magUnits, fSig, hx, hm]
  obtain htwo | hlt := h.eq_or_lt
  · rw [roundMag_two (by omega) (by omega)] at hx
    rw [magUnits_eq (q := 127) (u := 2 ^ 23) hx (by decide) (by decide)]
    omega
  obtain ⟨-, hbinade⟩ := roundExp_binade hm e
  obtain ⟨hle, hnorm⟩ := roundUnits_range hm e
  obtain ⟨hlo, hhi⟩ := roundUnits_near m e (roundExp m e)
  have hexp : roundExp m e ≤ 126 := by
    by_contra hgt
    have := Nat.pow_le_pow_right (n := 2) (by decide) (show 151 ≤ roundExp m e + 24 by omega)
    omega
  have hhalf : 2 ^ roundExp m e ≤ 2 ^ 126 := Nat.pow_le_pow_right (by decide) hexp
  rw [roundMag_eq hm, Nat.min_eq_left (by simp only [infMag]; omega)] at hx
  rw [magUnits_eq hx hle hnorm]
  omega

end Sys2Proof.Machine
end

section
/-! PROOFS. The sum and the difference of two finite binary32 numbers, in units of `2 ^ -150` (rule R7). -/

namespace Sys2Proof.Machine

open Sys2Proof

/-- A finite number in units of `2 ^ -150`. -/
def signedUnits (x : Num32) : Int := if fNeg x then -(magUnits x : Int) else magUnits x

/-- The aligned sum is the sum of the two numbers, in units of the smaller exponent. -/
theorem alignedSum_units (a b : Num32) :
    alignedSum a b * 2 ^ min (fExp a) (fExp b) = signedUnits a + signedUnits b := by
  have hterm {x : Num32} {e : Nat} (h : e ≤ fExp x) :
      (if fNeg x then -1 else 1) * ((fSig x * 2 ^ (fExp x - e) : Nat) : Int) * 2 ^ e = signedUnits x := by
    have hmag : ((fSig x * 2 ^ (fExp x - e) : Nat) : Int) * 2 ^ e = magUnits x := by
      rw [magUnits]
      norm_cast
      rw [Nat.mul_assoc, ← Nat.pow_add, Nat.sub_add_cancel h]
    rw [mul_assoc, hmag, signedUnits]
    split <;> simp
  simp only [alignedSum]
  rw [add_mul, hterm (Nat.min_le_left ..), hterm (Nat.min_le_right ..)]

/-- The magnitude of the aligned sum. -/
theorem natAbs_alignedSum (a b : Num32) :
    (alignedSum a b).natAbs * 2 ^ min (fExp a) (fExp b) = (signedUnits a + signedUnits b).natAbs := by
  rw [← alignedSum_units, Int.natAbs_mul, Int.natAbs_pow]
  rfl

/-- The sign of the aligned sum. -/
theorem alignedSum_neg_iff (a b : Num32) : alignedSum a b < 0 ↔ signedUnits a + signedUnits b < 0 := by
  rw [← alignedSum_units]
  exact ⟨fun h => Int.mul_neg_of_neg_of_pos h (by positivity), fun h => neg_of_mul_neg_left h (by positivity)⟩

/-- The magnitude of a sum is the rounded magnitude of the aligned sum, a zero as well. -/
theorem fMag_addFinite (a b : Num32) :
    fMag (addFinite a b) = roundMag (alignedSum a b).natAbs (min (fExp a) (fExp b)) 150 := by
  have hlt (m e : Nat) : roundMag m e 150 < 2 ^ 31 := (roundMag_le m e 150).trans_lt (by decide)
  simp only [addFinite]
  split
  · next h => rw [fMag_fPack (by decide), h, Int.natAbs_zero, roundMag_zero]
  · exact fMag_fPack (hlt _ _)

/-- The sign of a sum that is not zero. -/
theorem fNeg_addFinite {a b : Num32} (h : signedUnits a + signedUnits b ≠ 0) :
    fNeg (addFinite a b) = decide (signedUnits a + signedUnits b < 0) := by
  have hsum : alignedSum a b ≠ 0 := by
    intro h0
    rw [← alignedSum_units, h0, zero_mul] at h
    exact h rfl
  simp only [addFinite, if_neg hsum]
  rw [fNeg_fPack ((roundMag_le ..).trans_lt (by decide)), decide_eq_decide]
  exact alignedSum_neg_iff a b

/-- A sum of magnitude at most 2.0 is off by at most `2 ^ -24`. -/
theorem addFinite_near {a b : Num32} (h : (signedUnits a + signedUnits b).natAbs ≤ 2 ^ 151) :
    (signedUnits (addFinite a b) - (signedUnits a + signedUnits b)).natAbs ≤ 2 ^ 126 ∧
      fMag (addFinite a b) ≤ 0x40000000 := by
  have hnear := roundMag_near (by rwa [natAbs_alignedSum]) (fMag_addFinite a b)
  rw [natAbs_alignedSum] at hnear
  obtain ⟨hhi, hlo, hmag⟩ := hnear
  refine ⟨?_, hmag⟩
  rw [signedUnits]
  by_cases hzero : signedUnits a + signedUnits b = 0
  · split <;> omega
  · rw [fNeg_addFinite hzero]
    split <;> simp only [decide_eq_true_eq] at * <;> omega

/-- A sum at most `2 ^ -24` from 2.0 is 2.0. -/
theorem addFinite_two {a b : Num32} (h : (signedUnits a + signedUnits b - 2 ^ 151).natAbs ≤ 2 ^ 126) :
    addFinite a b = 0x40000000 := by
  have hnonneg : ¬ signedUnits a + signedUnits b < 0 := by omega
  apply num32_ext
  · rw [fNeg_addFinite (by omega), decide_eq_false hnonneg]
    rfl
  · rw [fMag_addFinite]
    exact roundMag_two (by rw [natAbs_alignedSum]; omega) (by rw [natAbs_alignedSum]; omega)

/-- Magnitude bits below those of an infinity are those of a finite number. -/
theorem fIsFinite_of_fMag_le {x : Num32} {n : Nat} (h : fMag x ≤ n) (hn : n < infMag) : fIsFinite x = true :=
  decide_eq_true (h.trans_lt hn)

theorem fFlip_toNat (x : Num32) : (fFlip x).toNat = x.toNat ^^^ 2 ^ 31 := BitVec.toNat_xor ..

/-- Flipping the sign keeps the magnitude. -/
theorem fMag_fFlip (x : Num32) : fMag (fFlip x) = fMag x := by
  rw [fMag, fFlip_toNat, Nat.xor_mod_two_pow, Nat.mod_self, Nat.xor_zero, fMag]

theorem fNeg_fFlip (x : Num32) : fNeg (fFlip x) = !fNeg x := by
  have hbit : (fFlip x).toNat / 2 ^ 31 = x.toNat / 2 ^ 31 ^^^ 1 := by
    rw [fFlip_toNat, Nat.xor_div_two_pow, Nat.div_self (by decide)]
  have hlt := x.isLt
  obtain h | h : x.toNat / 2 ^ 31 = 0 ∨ x.toNat / 2 ^ 31 = 1 := by omega
  · rw [h, Nat.zero_xor] at hbit
    rw [fNeg, fNeg, decide_eq_true (by omega), decide_eq_false (by omega), Bool.not_false]
  · rw [h, Nat.xor_self] at hbit
    rw [fNeg, fNeg, decide_eq_false (by omega), decide_eq_true (by omega), Bool.not_true]

theorem signedUnits_fFlip (x : Num32) : signedUnits (fFlip x) = -signedUnits x := by
  simp only [signedUnits, magUnits, fSig, fExp, fMag_fFlip, fNeg_fFlip]
  cases fNeg x <;> simp

theorem fAdd_finite {a b : Num32} (ha : fIsFinite a = true) (hb : fIsFinite b = true) : fAdd a b = addFinite a b := by
  simp [fAdd, addOrdered, fIsNaN_of_finite, fIsInf_of_finite, ha, hb]

theorem fSub_finite {a b : Num32} (ha : fIsFinite a = true) (hb : fIsFinite b = true) :
    fSub a b = addFinite a (fFlip b) := by
  have hf : fIsFinite (fFlip b) = true := by simpa [fIsFinite, fMag_fFlip] using hb
  simp [fSub, addOrdered, fIsNaN_of_finite, fIsInf_of_finite, ha, hb, hf]

end Sys2Proof.Machine
end

section
/-! PROOFS. The calibrated PH probe under binary32 (rule R160). -/

namespace Sys2Proof.Machine

open Sys2Proof

/-- A finite sum is the calibration models' as well (rule R7, U3). -/
theorem modelNum_add_finite {a b : Num32} (h : fIsFinite (fAdd a b) = true) : modelNum.add a b = fAdd a b :=
  modelResult_closed (leftOpen_finite h (by simp))

theorem modelNum_sub_finite {a b : Num32} (h : fIsFinite (fSub a b) = true) : modelNum.sub a b = fSub a b :=
  modelResult_closed (leftOpen_finite h (by simp))

theorem fSig_lt (x : Num32) : fSig x < 2 ^ 24 := by
  unfold fSig
  split <;> omega

/-- Magnitude bits up to those of 4.0 are those of a magnitude up to 4.0. -/
theorem magUnits_le_of_fMag_le {x : Num32} (h : fMag x ≤ 129 * 2 ^ 23) : magUnits x ≤ 2 ^ 152 := by
  obtain hfour | hlt := h.eq_or_lt
  · rw [magUnits_eq (q := 128) (u := 2 ^ 23) (by omega) (by decide) (by decide)]
    decide
  · have hexp : fExp x ≤ 128 := by
      unfold fExp
      omega
    calc
      magUnits x ≤ 2 ^ 24 * 2 ^ 128 := Nat.mul_le_mul (fSig_lt x).le (Nat.pow_le_pow_right (by decide) hexp)
      _ = 2 ^ 152 := by rw [← Nat.pow_add]

/-- A voltage from 0 to 4 is a finite number of that value, -0 included. -/
theorem voltage_range {v : Num32} (hnan : fIsNaN v = false) (hlo : fLt v (fOfNat 0) = false)
    (hhi : fLt (fOfNat 4) v = false) : fIsFinite v = true ∧ 0 ≤ signedUnits v ∧ signedUnits v ≤ 2 ^ 152 := by
  have hkey0 : fKey (fOfNat 0) = 0 := by decide
  have hkey4 : fKey (fOfNat 4) = 129 * 2 ^ 23 := by decide
  rw [fLt_eq hnan (by decide), hkey0, decide_eq_false_iff_not] at hlo
  rw [fLt_eq (by decide) hnan, hkey4, decide_eq_false_iff_not] at hhi
  have hsign (hneg : fNeg v = true) : fMag v = 0 := by
    rw [fKey, if_pos hneg] at hlo
    omega
  have hmag : fMag v ≤ 129 * 2 ^ 23 := by
    by_cases hneg : fNeg v = true
    · rw [hsign hneg]
      decide
    · rw [fKey, if_neg hneg] at hhi
      omega
  have hunits : magUnits v ≤ 2 ^ 152 := magUnits_le_of_fMag_le hmag
  refine ⟨fIsFinite_of_fMag_le hmag (by decide), ?_⟩
  rw [signedUnits]
  split
  · next hneg => simp [magUnits, fSig, hsign hneg]
  · omega

/-- Settles O41: the stored offset is `2 - v` up to `2 ^ -24`, so its sum with `v` is rounded to 2.0 at every voltage. -/
theorem phCalibrationReadsExactlySeven : Obligations.PhCalibrationReadsExactlySeven := by
  unfold Obligations.PhCalibrationReadsExactlySeven
  intro v hnan hlo hhi
  obtain ⟨hv, hnonneg, hle⟩ := voltage_range hnan hlo hhi
  have hpivot : modelNum.div modelNum.seven 0x40600000 = 0x40000000 := by decide
  have hread : modelNum.mul 0x40600000 0x40000000 = 0x40E00000 := by decide
  have htwo : signedUnits 0x40000000 = 2 ^ 151 := by decide
  have hsub : fSub 0x40000000 v = addFinite 0x40000000 (fFlip v) := fSub_finite (by decide) hv
  obtain ⟨hnear, hmag⟩ := addFinite_near (a := 0x40000000) (b := fFlip v) (by rw [signedUnits_fFlip, htwo]; omega)
  rw [signedUnits_fFlip, htwo] at hnear
  rw [← hsub] at hnear hmag
  have hoffset := fIsFinite_of_fMag_le hmag (by decide)
  have hsum : fAdd v (fSub 0x40000000 v) = 0x40000000 := by
    rw [fAdd_finite hv hoffset]
    exact addFinite_two (by omega)
  rw [xformPhBasic, phOffsetFor, hpivot, modelNum_sub_finite hoffset, modelNum_add_finite (by rw [hsum]; decide), hsum,
    hread]

end Sys2Proof.Machine
end

section
/-! PROOFS. Which command two bytes select (rule R174). -/

namespace Sys2Proof.Machine

open Sys2Proof

/-- With both code maps injective the codes of a pair select that pair's instruction (rules R74, R75, R174). -/
theorem dispatch_codes {s : State} (h : s.cfg.codes.wellFormed = true) (k : Kind) (m : Command) (arg : Half) :
    dispatch (s.cfg.codes.kindCode k) (s.cfg.codes.cmdCode m) arg s = exec (Instr.ofCommand k m arg) s := by
  obtain ⟨hkinds, hcommands⟩ := Bool.and_eq_true_iff.1 h
  simp [dispatch, commandInstr, kindOf_kindCode hkinds k, commandOf_cmdCode hcommands m]

/-- Settles O13: the codes select their own pair; a byte selects only what has it as its code, and the command of an
absent sensor stands behind its presence. -/
theorem dispatchSelectsTheMatchingCommand : Obligations.DispatchSelectsTheMatchingCommand := by
  unfold Obligations.DispatchSelectsTheMatchingCommand
  intro kb cb arg s hcodes
  refine ⟨fun k m hkind hcommand _ => ?_, fun habsent => ?_, fun hunassigned => ?_⟩
  · rw [← hkind, ← hcommand, dispatch_codes hcodes]
  · obtain ⟨-, e⟩ | ⟨k, m, hkind, -, e⟩ := dispatch_cases kb cb arg s
    · exact e
    · rw [e, exec_ofCommand, onPresent_absent (habsent k (kindOf_some hkind))]
  · obtain ⟨-, e⟩ | ⟨k, m, -, hcommand, -⟩ := dispatch_cases kb cb arg s
    · exact e
    · exact absurd (commandOf_some hcommand) (hunassigned m)

end Sys2Proof.Machine
end

section
/-! PROOFS. What a tick sends, samples and leaves alone, added up over the shares of the sensors (rules R175, R177). -/

namespace Sys2Proof.Machine

open Sys2Proof

/-- From `s` to `t` the present ones among the sensors `ks` were served in order: each was sampled once and sent one
frame, with field `q k` for sensor `k`; the receive registers, the calibration, the configuration and the events stayed. -/
structure Served (q : Kind → Half) (ks : List Kind) (s t : State) : Prop where
  tx : t.tx = s.tx ++ (ks.filter fun k => (s.cfg.sensor.get k).present).flatMap fun k =>
    encodeTelemetry s.cfg.codes k (q k)
  rawLog : t.rawLog = s.rawLog ++ ks.filter fun k => (s.cfg.sensor.get k).present
  rxBuf : t.rxBuf = s.rxBuf
  rxCnt : t.rxCnt = s.rxCnt
  calibration : calibration t = calibration s
  cfg : t.cfg = s.cfg
  events : t.events = s.events

/-- Serving some sensors and then others is serving them all. -/
theorem Served.trans {q : Kind → Half} {ks js : List Kind} {s t u : State} (h : Served q ks s t)
    (h' : Served q js t u) : Served q (ks ++ js) s u where
  tx := by rw [h'.tx, h.tx, h.cfg, List.filter_append, List.flatMap_append, List.append_assoc]
  rawLog := by rw [h'.rawLog, h.rawLog, h.cfg, List.filter_append, List.append_assoc]
  rxBuf := h'.rxBuf.trans h.rxBuf
  rxCnt := h'.rxCnt.trans h.rxCnt
  calibration := h'.calibration.trans h.calibration
  cfg := h'.cfg.trans h.cfg
  events := h'.events.trans h.events

/-- One sensor's share of a tick serves that sensor, with a field the other sensors do not depend on. -/
theorem tickSensor_serves {k : Kind} {s t : State} (h : tickSensor k s = .next t) :
    ∃ v, ∀ q : Kind → Half, q k = v → Served q [k] s t := by
  have hcalibration := tickSensor_keeps_calibration h
  obtain ⟨hp, rfl⟩ | ⟨hp, ans, w, b, c, n, v, rfl, -, -⟩ := tickSensor_cases h <;>
    rw [State.present] at hp
  · exact ⟨0, fun q _ => ⟨by simp [hp], by simp [hp], rfl, rfl, hcalibration, rfl, rfl⟩⟩
  · exact ⟨v, fun q hq => ⟨by simp [hp, hq], by simp [hp], rfl, rfl, hcalibration, rfl, rfl⟩⟩

/-- A tick serves the three sensors in order (rule R175). -/
theorem tick_serves {s t : State} (h : tick s = .next t) : ∃ q, Served q [.temp, .ph, .tds] s t := by
  obtain ⟨u, v, hTemp, hPh, hTds⟩ := tick_cases h
  obtain ⟨a, ha⟩ := tickSensor_serves hTemp
  obtain ⟨b, hb⟩ := tickSensor_serves hPh
  obtain ⟨c, hc⟩ := tickSensor_serves hTds
  exact ⟨PerKind.get { temp := a, ph := b, tds := c }, ((ha _ rfl).trans (hb _ rfl)).trans (hc _ rfl)⟩

/-- Settles O44: a tick that completes went through the three shares, and the share of a sensor is `tickSensor`. -/
theorem tickServesTheSensorsInOrder : Obligations.TickServesTheSensorsInOrder := by
  unfold Obligations.TickServesTheSensorsInOrder
  intro share s es hlegal hevents
  obtain ⟨t, ht⟩ := tick_next (s.setEvents es)
  obtain ⟨u, v, hTemp, hPh, hTds⟩ := tick_cases ht
  exact ⟨u, v, t, hTemp, hPh, hTds, (step_event hlegal hevents).trans ht⟩

/-- Settles O45: a tick always completes, and what it sends and samples is the sum of the three shares. -/
theorem tickEmitsOneFramePerPresentSensor : Obligations.TickEmitsOneFramePerPresentSensor := by
  unfold Obligations.TickEmitsOneFramePerPresentSensor
  intro s es hlegal hevents active
  obtain ⟨t, ht⟩ := tick_next (s.setEvents es)
  obtain ⟨q, htx, hlog, hbuf, hcnt, hcalibration, hcfg, hrest⟩ := tick_serves ht
  exact ⟨t, q, (step_event hlegal hevents).trans ht, htx, hlog, hbuf, hcnt, hcalibration, hcfg, hrest⟩

end Sys2Proof.Machine
end

section
/-! PROOFS. A tick neither reads nor writes the receive registers and the pending events, so it commutes with a byte inside
a chunk (rules R175, R198). -/

namespace Sys2Proof.Machine

open Sys2Proof

/-- `s` with the receive registers `buf` and `cnt` and the pending events `es`. -/
def withInput (buf : Vector Byte 6) (cnt : Fin 6) (es : List Event) (s : State) : State :=
  { s with rxBuf := buf, rxCnt := cnt, events := es }

section

variable (k : Kind) (buf : Vector Byte 6) (cnt : Fin 6) (es : List Event) (s : State)

@[simp] theorem withInput_cfg : (withInput buf cnt es s).cfg = s.cfg := rfl
@[simp] theorem withInput_rawAns : (withInput buf cnt es s).rawAns = s.rawAns := rfl
@[simp] theorem withInput_present : (withInput buf cnt es s).present k = s.present k := rfl
@[simp] theorem withInput_filter : (withInput buf cnt es s).filter k = s.filter k := rfl

/-- A request uses up the same answer. -/
theorem afterRaw_withInput : (withInput buf cnt es s).afterRaw k = withInput buf cnt es (s.afterRaw k) := by
  unfold State.afterRaw
  rw [withInput_rawAns]
  cases s.rawAns.get k <;> rfl

/-- An update stores the same value. -/
theorem updateSensor_withInput : updateSensor k (withInput buf cnt es s) = withInput buf cnt es (updateSensor k s) := by
  rw [updateSensor, afterRaw_withInput]
  rfl

/-- A read gives the same answer and leaves the same window. -/
theorem readSensor_withInput : readSensor k (withInput buf cnt es s) =
    ((readSensor k s).1, withInput buf cnt es (readSensor k s).2) := by
  unfold readSensor push
  rw [withInput_filter]
  cases s.filter k <;> rfl

/-- The same frame is sent. -/
theorem emitTelemetry_withInput (q : Half) :
    emitTelemetry k q (withInput buf cnt es s) = withInput buf cnt es (emitTelemetry k q s) := by
  rw [emitTelemetry_eq, emitTelemetry_eq]
  rfl

variable {k s} {t : State}

/-- One sensor's share of a tick does the same whatever stands in the receive registers. -/
theorem tickSensor_withInput (h : tickSensor k s = .next t) :
    tickSensor k (withInput buf cnt es s) = .next (withInput buf cnt es t) := by
  rw [tickSensor_eq] at h ⊢
  simp only [withInput_present, withInput_cfg, updateSensor_withInput, readSensor_withInput, onPresent,
    emitTelemetry_withInput] at h ⊢
  split at h <;> cases h
  · rw [if_pos ‹_›]
    split <;> rfl
  · rw [if_neg ‹_›]

/-- A tick does the same whatever stands in the receive registers (rule R175). -/
theorem tick_withInput (h : tick s = .next t) : tick (withInput buf cnt es s) = .next (withInput buf cnt es t) := by
  obtain ⟨u, v, hTemp, hPh, hTds⟩ := tick_cases h
  rw [tick, tickSensor_withInput buf cnt es hTemp, andThen_of_next, tickSensor_withInput buf cnt es hPh,
    andThen_of_next, tickSensor_withInput buf cnt es hTds]

end

/-- Two steps that go on are a run of two. -/
theorem run_two {s t u : State} (h : core.step s = .next t) (h' : core.step t = .next u) :
    Host.Core.run core 2 s = .next u := by
  simp [Host.Core.run, h, h']

/-- Settles O47: both runs reach the state the tick leaves, with the byte stored and counted. -/
theorem partialFrameAndTickCommute : Obligations.PartialFrameAndTickCommute := by
  unfold Obligations.PartialFrameAndTickCommute
  intro s b es hlegal hcount
  obtain ⟨t, ht⟩ := tick_next s
  have htick (buf : Vector Byte 6) (cnt : Fin 6) (es : List Event) :
      step (withInput buf cnt (.tick :: es) s) = .next (withInput buf cnt es t) := by
    rw [step_event (s := withInput buf cnt (.tick :: es) s) hlegal rfl]
    exact tick_withInput (s := s) buf cnt es ht
  have hbyte (u : State) (es : List Event) (hu : u.cfg.legal = true) :
      step (withInput s.rxBuf s.rxCnt (.rxByte b :: es) u) = .next
        (withInput (s.rxBuf.set s.rxCnt.val b) ⟨s.rxCnt.val + 1, Nat.succ_lt_succ hcount⟩ es u) :=
    step_unfinishedChunk (s := withInput s.rxBuf s.rxCnt (.rxByte b :: es) u) hu rfl hcount
  have hlegal' : t.cfg.legal = true := by rw [tick_keeps_cfg ht, hlegal]
  exact ⟨_, run_two (hbyte s _ hlegal) (htick _ _ es), run_two (htick s.rxBuf s.rxCnt _) (hbyte t es hlegal')⟩

end Sys2Proof.Machine
end

section
/-! PROOFS. The uniform contract of the sensors: `UPDATE`, `READ` and `KIND` (rules R170 to R172). -/

namespace Sys2Proof.Machine

open Sys2Proof

/-- In basic mode the PH model is the one of rule R132. -/
theorem transform_ph_basic {s : State} (h : s.phMode = .basic) (v : Number) :
    transform .ph v s = xformPhBasic (cfgModelNum s.cfg) s.cfg.ph.k s.phZeroOffset v := by
  simp [transform, h]

/-- In advanced mode the PH model is the one of rule R133. -/
theorem transform_ph_advanced {s : State} (h : s.phMode = .advanced) (v : Number) :
    transform .ph v s = xformPhAdv (cfgModelNum s.cfg) s.phLow s.phMid s.phHigh v := by
  simp [transform, h]

/-- Settles O27: the update stores the model's value of the one sample its `RAW` invocation is answered, and each model is
the formula of its rule. -/
theorem updateStoresTheModelsValue : Obligations.UpdateStoresTheModelsValue := by
  unfold Obligations.UpdateStoresTheModelsValue
  intro s N
  refine ⟨⟨_, _, rawAnswered_afterRaw .temp s, update_state .temp s⟩,
    fun hmode => ⟨_, _, rawAnswered_afterRaw .ph s, ?_⟩, fun hmode => ⟨_, _, rawAnswered_afterRaw .ph s, ?_⟩,
    ⟨_, _, rawAnswered_afterRaw .tds s, update_state .tds s⟩⟩
  · rw [update_state, transform_ph_basic hmode]
    rfl
  · rw [update_state, transform_ph_advanced hmode]
    rfl

/-- Settles O28: a read writes at most the window and the cursor, so the stored value stays. -/
theorem readPassesTheValueThroughTheFilter : Obligations.ReadPassesTheValueThroughTheFilter := by
  unfold Obligations.ReadPassesTheValueThroughTheFilter
  intro k s
  obtain ⟨b, c, n, hread, -, -⟩ := read_state k s
  refine ⟨read_unfiltered, read_filtered, ?_⟩
  rw [hread, PerKind.get_set_same]
  rfl

/-- Settles O36: the tag of sensor `k` is `k` itself, and `kindByte` looks up its code. -/
theorem kindIsTheSensorsTag : Obligations.KindIsTheSensorsTag := by
  unfold Obligations.KindIsTheSensorsTag
  exact fun k s => ⟨rfl, rfl⟩

end Sys2Proof.Machine
end

section
/-! PROOFS. Nothing stops the block: every event of a legal block runs to a next state, and a chunk that is no valid frame is
dropped with no other effect (rules R193, R194, R200). -/

namespace Sys2Proof

/-- What is not a valid frame is rejected (rule R93). -/
theorem dec6_error_of_invalid {pfx : Byte} {bs : List Byte} (h : validFrame pfx 6 bs = false) :
    ∃ e, dec6 pfx bs = .error e := by
  cases hdec : dec6 pfx bs with
  | error e => exact ⟨e, rfl⟩
  | frame f => simp [dec6_eq_frame hdec] at h

end Sys2Proof

namespace Sys2Proof.Machine

open Sys2Proof

/-- A dispatched pair of bytes always completes: the command it selects has a meaning, and an unassigned pair is no error
(rule R81). -/
theorem dispatch_next (kb cb : Byte) (arg : Half) (s : State) : ∃ t, dispatch kb cb arg s = .next t := by
  obtain ⟨-, hnone⟩ | ⟨k, m, -, -, hcommand⟩ := dispatch_cases kb cb arg s
  · exact ⟨s, hnone⟩
  · rw [hcommand]
    exact exec_next _ s

/-- A received byte always completes: it is counted, or its chunk is dropped or dispatched (rule R99). -/
theorem rxByte_next (b : Byte) (s : State) : ∃ t, rxByte b s = .next t := by
  obtain ⟨-, hcounted⟩ | ⟨-, ⟨e, -, hdropped⟩ | ⟨f, -, hdispatched⟩⟩ := rxByte_cases b s
  · exact ⟨_, hcounted⟩
  · exact ⟨_, hdropped⟩
  · rw [hdispatched]
    exact dispatch_next ..

/-- Every event runs to completion (rule R60). -/
theorem runEvent_next (e : Event) (s : State) : ∃ t, runEvent e s = .next t := by
  cases e with
  | rxByte b => exact rxByte_next b s
  | tick => exact tick_next s
  | setTemp x => exact ⟨setTemp x s, rfl⟩
  | hwReset => exact ⟨hwReset s, rfl⟩

/-- Settles O53: a legal block waits or runs its next event, and every event completes. -/
theorem legalBlockNeverStops : Obligations.LegalBlockNeverStops := by
  unfold Obligations.LegalBlockNeverStops Safe
  intro s hlegal
  cases hevents : s.events with
  | nil => exact ⟨s, by rw [step_eq, if_pos hlegal, nextEvent, hevents]⟩
  | cons e es =>
    rw [step_event hlegal hevents]
    exact runEvent_next e _

/-- Settles O12: the sixth byte has the chunk judged, `DEC6` rejects it, and the verdict on a rejected chunk is the drop. -/
theorem invalidChunkIsDropped : Obligations.InvalidChunkIsDropped := by
  unfold Obligations.InvalidChunkIsDropped
  intro s b es hlegal hevents hcount hinvalid
  obtain ⟨e, herror⟩ := dec6_error_of_invalid hinvalid
  rw [step_completedChunk hlegal hevents hcount]
  exact judgeChunk_error herror

end Sys2Proof.Machine
end

section
/-! PROOFS. Frames and commands without an effect, and the mode command (rules R81, R151, R174). -/

namespace Sys2Proof

/-- A legal configuration has both code maps injective (rule R212). -/
theorem Cfg.codes_wellFormed {c : Cfg} (h : c.legal = true) : c.codes.wellFormed = true := by
  simp only [Cfg.legal, Bool.and_eq_true] at h
  obtain ⟨⟨⟨hcodes, -⟩, -⟩, -⟩ := h
  exact hcodes

/-- Two bytes select no instruction exactly if one of them is unassigned (rule R174). -/
theorem commandInstr_eq_none_iff (c : Codes) (kb cb : Byte) (arg : Half) :
    commandInstr c kb cb arg = none ↔ c.kindOf kb = none ∨ c.commandOf cb = none := by
  unfold commandInstr
  cases c.kindOf kb <;> cases c.commandOf cb <;> simp

/-- The default kind codes are 0 to 2 (decision D4). -/
theorem kindOf_default_eq_none_iff (kb : Byte) : Codes.default.kindOf kb = none ↔ 3 ≤ kb.toNat := by
  simp only [Codes.kindOf, Codes.default, ← BitVec.toNat_inj, BitVec.ofNat_eq_ofNat, BitVec.toNat_ofNat]
  split_ifs <;> simp <;> omega

/-- The default command codes are 0 to 5 (decision D5). -/
theorem commandOf_default_eq_none_iff (cb : Byte) : Codes.default.commandOf cb = none ↔ 6 ≤ cb.toNat := by
  simp only [Codes.commandOf, Codes.default, ← BitVec.toNat_inj, BitVec.ofNat_eq_ofNat, BitVec.toNat_ofNat]
  split_ifs <;> simp <;> omega

end Sys2Proof

namespace Sys2Proof.Machine

open Sys2Proof

/-- Settles O14: the accepted chunk is dispatched, and dispatch does nothing where no command of a present sensor matches. -/
theorem unassignedFrameHasNoEffect : Obligations.UnassignedFrameHasNoEffect := by
  unfold Obligations.UnassignedFrameHasNoEffect
  refine ⟨fun s b es f hlegal hevents hcount hframe hnone => ?_, fun kb cb arg => ?_⟩
  · rw [step_completedChunk hlegal hevents hcount, judgeChunk_frame hframe]
    obtain ⟨-, habsent, hunassigned⟩ := dispatchSelectsTheMatchingCommand f.kind f.command (frameArg f)
      { s with events := es, rxBuf := s.rxBuf.set 5 b, rxCnt := 0 } (Cfg.codes_wellFormed hlegal)
    exact hnone.elim habsent hunassigned
  · rw [commandInstr_eq_none_iff, kindOf_default_eq_none_iff, commandOf_default_eq_none_iff]

/-- Settles O17: the effect of a command stands behind the presence of its sensor. -/
theorem commandOfAbsentSensorChangesNothing : Obligations.CommandOfAbsentSensorChangesNothing := by
  unfold Obligations.CommandOfAbsentSensorChangesNothing
  intro k m arg s habsent
  rw [exec_ofCommand, onPresent_absent habsent]

/-- The mode argument 0 selects Basic (rule R151). -/
theorem modeAfter_zero {arg : Half} (h : arg.toNat = 0) (m : PhMode) : modeAfter arg m = .basic := by
  obtain rfl : arg = 0 := BitVec.eq_of_toNat_eq h
  rfl

/-- The mode argument 1 selects Advanced (rule R151). -/
theorem modeAfter_one {arg : Half} (h : arg.toNat = 1) (m : PhMode) : modeAfter arg m = .advanced := by
  obtain rfl : arg = 1 := BitVec.eq_of_toNat_eq h
  rfl

/-- Any other mode argument keeps the mode (rule R151). -/
theorem modeAfter_other {arg : Half} (h : 2 ≤ arg.toNat) (m : PhMode) : modeAfter arg m = m := by
  have h0 : arg ≠ 0 := by
    rintro rfl
    exact absurd h (by decide)
  have h1 : arg ≠ 1 := by
    rintro rfl
    exact absurd h (by decide)
  rw [modeAfter, argMode, if_neg h0, if_neg h1]

/-- Settles O21: the effect of the command is the mode `modeAfter` reads from the argument. -/
theorem phSetModeReadsTheArgument : Obligations.PhSetModeReadsTheArgument := by
  unfold Obligations.PhSetModeReadsTheArgument
  intro arg s hpresent
  have hrun : exec (.phSetMode arg) s = .next (s.setPhMode (modeAfter arg s.phMode)) :=
    exec_ofCommand_present (k := .ph) hpresent .setMode arg
  rw [hrun]
  refine ⟨fun h => ?_, fun h => ?_, fun h => ?_⟩
  · rw [modeAfter_zero h, State.setPhMode]
  · rw [modeAfter_one h, State.setPhMode]
  · rw [modeAfter_other h, State.setPhMode]

end Sys2Proof.Machine
end

section
/-! PROOFS. The events that are no byte and no tick, and the wait: `SETTEMP`, `HWRESET`, no event (rules R37, R137, R210). -/

namespace Sys2Proof.Machine

open Sys2Proof

/-- Settles O51: with no event `nextEvent` answers the state itself. -/
theorem blockWaitsForAnEvent : Obligations.BlockWaitsForAnEvent := by
  unfold Obligations.BlockWaitsForAnEvent
  intro s hlegal hevents
  rw [step_eq, if_pos hlegal, nextEvent, hevents]

/-- Settles O48: the write of `tds_temp` stands behind the presence of the TDS sensor. -/
theorem setTempWritesTheAmbientTemperature : Obligations.SetTempWritesTheAmbientTemperature := by
  unfold Obligations.SetTempWritesTheAmbientTemperature
  intro s x es hlegal hevents
  have hrun : step s = .next (onPresent .tds (State.setTdsTemp x) (s.setEvents es)) := step_event hlegal hevents
  refine ⟨fun hpresent => ?_, fun habsent => ?_⟩
  · exact hrun.trans (congrArg _ (onPresent_present (k := .tds) (s := s.setEvents es) hpresent))
  · exact hrun.trans (congrArg _ (onPresent_absent (k := .tds) (s := s.setEvents es) habsent))

/-- `HWRESET`'s share for the PH registers, as one record (rule R210). -/
theorem resetPh_eq (s : State) : resetPh s = { s with
    phMode := if s.present .ph then s.cfg.ph.initMode else s.phMode
    phZeroOffset := if s.present .ph then (cfgNum s.cfg).zero else s.phZeroOffset
    phLow := if s.present .ph then s.cfg.ph.defLow else s.phLow
    phMid := if s.present .ph then s.cfg.ph.defMid else s.phMid
    phHigh := if s.present .ph then s.cfg.ph.defHigh else s.phHigh } := by
  cases h : s.present .ph with
  | false => simp [resetPh, onPresent_absent h]
  | true =>
    rw [resetPh, onPresent_present h]
    rfl

/-- `HWRESET`'s share for the TDS registers, as one record (rule R210). -/
theorem resetTds_eq (s : State) : resetTds s = { s with
    tdsProbe := if s.present .tds then s.cfg.tds.defProbe else s.tdsProbe
    tdsTemp := if s.present .tds then (cfgNum s.cfg).twentyFive else s.tdsTemp } := by
  cases h : s.present .tds with
  | false => simp [resetTds, onPresent_absent h]
  | true =>
    rw [resetTds, onPresent_present h]
    rfl

/-- The registers `HWRESET` leaves a sensor of configuration `c` that had the registers `r` (rule R210). -/
def regsAfterReset (c : SensorCfg) (r : SensorRegs) : SensorRegs :=
  if c.present then
    if c.filter = .none then { r with value := c.initial }
    else { value := c.initial, buf := List.replicate c.cap c.initial, cur := 0 }
  else r

/-- `HWRESET` on the registers of every sensor (rule R210). -/
theorem hwReset_sensor_get (k : Kind) (s : State) :
    (hwReset s).sensor.get k = regsAfterReset (s.cfg.sensor.get k) (s.sensor.get k) := by
  simp only [hwReset, resetTds_sensor, resetPh_sensor, resetSensor_eq]
  cases k <;> rfl

/-- What `HWRESET` writes: the receive count, the sensors, the PH and the TDS registers (rule R210). -/
theorem hwReset_eq (s : State) : hwReset s = { s with
    rxCnt := 0
    sensor := (hwReset s).sensor
    phMode := if s.present .ph then s.cfg.ph.initMode else s.phMode
    phZeroOffset := if s.present .ph then (cfgNum s.cfg).zero else s.phZeroOffset
    phLow := if s.present .ph then s.cfg.ph.defLow else s.phLow
    phMid := if s.present .ph then s.cfg.ph.defMid else s.phMid
    phHigh := if s.present .ph then s.cfg.ph.defHigh else s.phHigh
    tdsProbe := if s.present .tds then s.cfg.tds.defProbe else s.tdsProbe
    tdsTemp := if s.present .tds then (cfgNum s.cfg).twentyFive else s.tdsTemp } := by
  simp only [hwReset, resetTds_eq, resetPh_eq, resetSensor_eq]
  rfl

/-- Settles O49: `HWRESET` writes what `hwReset_eq` names, each register behind the presence of its sensor. -/
theorem hardwareResetRestoresTableV : Obligations.HardwareResetRestoresTableV := by
  unfold Obligations.HardwareResetRestoresTableV
  intro s es hlegal hevents
  refine ⟨hwReset (s.setEvents es), step_event hlegal hevents, ?_⟩
  have hsensor (k : Kind) :
      (hwReset (s.setEvents es)).sensor.get k = regsAfterReset (s.cfg.sensor.get k) (s.sensor.get k) :=
    hwReset_sensor_get k _
  rw [hwReset_eq]
  refine ⟨rfl, rfl, rfl, rfl, rfl, rfl, rfl, rfl, fun k => ⟨fun hp hf => ?_, fun hp hf => ?_, fun hp => ?_⟩,
    fun hp => ?_, fun hp => ?_, fun hp => ?_, fun hp => ?_⟩
  · rw [hsensor, regsAfterReset, if_pos hp, if_pos hf]
  · rw [hsensor, regsAfterReset, if_pos hp, if_neg hf]
  · rw [hsensor, regsAfterReset, hp, if_neg Bool.false_ne_true]
  · exact ⟨if_pos hp, if_pos hp, if_pos hp, if_pos hp, if_pos hp⟩
  · have hn : ¬ (s.setEvents es).present .ph = true := Bool.eq_false_iff.1 hp
    exact ⟨if_neg hn, if_neg hn, if_neg hn, if_neg hn, if_neg hn⟩
  · exact ⟨if_pos hp, if_pos hp⟩
  · have hn : ¬ (s.setEvents es).present .tds = true := Bool.eq_false_iff.1 hp
    exact ⟨if_neg hn, if_neg hn⟩

/-- A sensor with a filter starts with a window of `C(s)` initial values (rules R24, R25, R42). -/
theorem resetWindow_filtered {c : SensorCfg} (h : c.filter ≠ .none) :
    resetWindow c = List.replicate c.cap c.initial := by
  unfold resetWindow
  split
  · exact absurd ‹_› h
  · rfl
  · rfl

/-- The constants 0 and 25 of a block of binary32 numbers (rule R7). -/
theorem cfgNum_binary32_constants {c : Cfg} (h : c.num = .binary32) :
    (cfgNum c).zero = .b32 0x00000000 ∧ (cfgNum c).twentyFive = .b32 0x41C80000 := by
  rw [cfgNum, h]
  have hzero : fOfNat 0 = 0x00000000 := by decide
  have htwentyFive : fOfNat 25 = 0x41C80000 := by decide
  rw [← hzero, ← htwentyFive]
  cases c.q10 <;> exact ⟨rfl, rfl⟩

/-- Settles O50: `State.initial` writes Table V's values, register by register. -/
theorem resetStateHasTheValuesOfTableV : Obligations.ResetStateHasTheValuesOfTableV := by
  unfold Obligations.ResetStateHasTheValuesOfTableV
  intro c s
  have hregs (k : Kind) : s.sensor.get k = resetRegs (c.sensor.get k) := initial_sensor_get c k
  refine ⟨rfl, rfl, fun k => ?_, rfl, rfl, rfl, rfl, rfl, rfl, rfl, cfgNum_binary32_constants, rfl, fun k => ?_,
    rfl, rfl, rfl⟩
  · rw [hregs]
    exact ⟨rfl, rfl, resetWindow_filtered⟩
  · cases k <;> exact ⟨rfl, rfl⟩

end Sys2Proof.Machine
end

section
/-! PROOFS. The legality of a configuration is what rule R212 asks of it. -/

namespace Sys2Proof

theorem allDistinct_iff_nodup (bs : List Byte) : allDistinct bs = true ↔ bs.Nodup := by
  induction bs with
  | nil => simp [allDistinct]
  | cons b bs ih => simp [allDistinct, ih]

/-- The six command codes are distinct exactly if `CMD_CODE` is injective (rule R75). -/
theorem commandsDistinct_iff (c : Codes) :
    c.commandsDistinct = true ↔ ∀ m n : Command, c.cmdCode m = c.cmdCode n → m = n := by
  have hbytes : c.commandBytes = [Command.reset, .calibrate, .calLow, .calMid, .calHigh, .setMode].map c.cmdCode := rfl
  have hall (m : Command) : m ∈ [Command.reset, .calibrate, .calLow, .calMid, .calHigh, .setMode] := by
    cases m <;> decide
  rw [Codes.commandsDistinct, allDistinct_iff_nodup, hbytes, List.nodup_map_iff_inj_on (by decide)]
  exact ⟨fun h m n => h m (hall m) n (hall n), fun h m _ n _ => h m n⟩

/-- The three kind codes are distinct exactly if `KIND_CODE` is injective (rule R74). -/
theorem kindsDistinct_iff (c : Codes) :
    c.kindsDistinct = true ↔ ∀ j k : Kind, c.kindCode j = c.kindCode k → j = k := by
  constructor
  · intro h j k e
    have hj := kindOf_kindCode h j
    rw [e, kindOf_kindCode h k] at hj
    exact (Option.some.inj hj).symm
  · intro h
    simp only [Codes.kindsDistinct, Bool.and_eq_true, bne_iff_ne]
    exact ⟨⟨mt (h .temp .ph) (by decide), mt (h .temp .tds) (by decide)⟩, mt (h .ph .tds) (by decide)⟩

/-- What rule R212 asks of one sensor. -/
theorem SensorCfg.wellFormed_iff (c : SensorCfg) :
    c.wellFormed = true ↔
      (c.present = true → c.filter ≠ .none → 1 ≤ c.cap ∧ (c.filter = .median → c.cap ≠ 2)) := by
  unfold SensorCfg.wellFormed
  cases c.present with
  | false => simp
  | true => cases c.filter <;> simp

end Sys2Proof

namespace Sys2Proof.Machine

open Sys2Proof

/-- Settles O52: legality is the conjunction of the rule's conditions, and `step` asks for it first. -/
theorem illegalConfigurationIsRefused : Obligations.IllegalConfigurationIsRefused := by
  unfold Obligations.IllegalConfigurationIsRefused
  refine ⟨fun c => ?_, fun s hillegal => ?_⟩
  · rw [← kindsDistinct_iff, ← commandsDistinct_iff]
    simp only [← SensorCfg.wellFormed_iff, forall_kind (q := fun k => (c.sensor.get k).wellFormed = true), Cfg.legal,
      Codes.wellFormed, Bool.and_eq_true, and_assoc]
    rfl
  · rw [step_eq, hillegal, if_neg Bool.false_ne_true]

end Sys2Proof.Machine
end

section
/-! PROOFS. The ascending order of a window is unique up to elements that compare equal (rule R114). -/

namespace Sys2Proof.Machine

open Sys2Proof

section

variable {α : Type} {N : Config.Numerics α} {l : List α} (h : weakOrder N l = true)
include h

/-- No element of a window `<f` orders is less than itself. -/
theorem lt_irrefl_of_weakOrder {x : α} (hx : x ∈ l) : N.lt x x = false := by
  obtain ⟨hasymm, -⟩ := weakOrder_iff.1 h x hx x hx
  exact Bool.eq_false_iff.2 fun hlt => hasymm ⟨hlt, hlt⟩

/-- Every element of a window `<f` orders lies on a side of one of two that compare. -/
theorem lt_or_lt_of_weakOrder {x y z : α} (hx : x ∈ l) (hy : y ∈ l) (hz : z ∈ l) (hlt : N.lt x z = true) :
    N.lt x y = true ∨ N.lt y z = true := by
  obtain ⟨-, hside⟩ := weakOrder_iff.1 h x hx y hy
  exact hside z hz hlt

/-- A sequence no element of which is less than the one before it is ascending throughout, where `<f` orders its elements. -/
theorem pairwise_of_neighbours
    (hl : ∀ (j : Nat) (x y : α), l[j]? = some x → l[j + 1]? = some y → N.lt y x = false) :
    l.Pairwise fun x y => N.lt y x = false := by
  rw [List.pairwise_iff_getElem]
  intro i j hi hj hij
  obtain ⟨d, rfl⟩ := Nat.exists_eq_add_of_lt hij
  induction d with
  | zero => exact hl i _ _ (List.getElem?_eq_getElem hi) (List.getElem?_eq_getElem hj)
  | succ d ih =>
    have hj' : i + d + 1 < l.length := by omega
    have hfirst := ih hj' (by omega)
    have hlast := hl (i + d + 1) _ _ (List.getElem?_eq_getElem hj') (List.getElem?_eq_getElem hj)
    rw [← Bool.not_eq_true] at hfirst hlast ⊢
    exact fun hlt => (lt_or_lt_of_weakOrder h (List.getElem_mem hj) (List.getElem_mem hj') (List.getElem_mem hi) hlt).elim
      hlast hfirst

/-- The elements less than the one in place `j` of an ascending sequence stand before it. -/
theorem countP_lt_le_of_ascending (hl : l.Pairwise fun x y => N.lt y x = false) {j : Nat} (hj : j < l.length) :
    l.countP (N.lt · l[j]) ≤ j := by
  have hnone : (l.drop j).countP (N.lt · l[j]) = 0 := by
    rw [List.pairwise_iff_getElem] at hl
    rw [List.drop_eq_getElem_cons hj, List.countP_eq_zero]
    intro e he
    obtain rfl | he := List.mem_cons.1 he
    · simp [lt_irrefl_of_weakOrder h (List.getElem_mem hj)]
    · obtain ⟨i, hi, rfl⟩ := List.mem_iff_getElem.1 he
      rw [List.length_drop] at hi
      rw [List.getElem_drop]
      simp [hl j (j + 1 + i) hj (by omega) (by omega)]
  calc
    l.countP (N.lt · l[j]) = (l.take j).countP (N.lt · l[j]) + (l.drop j).countP (N.lt · l[j]) := by
      rw [← List.countP_append, List.take_append_drop]
    _ ≤ (l.take j).length + 0 := by
      rw [hnone]
      exact Nat.add_le_add_right List.countP_le_length 0
    _ ≤ j := List.length_take_le j l

/-- If the element in place `j` of an ascending sequence is less than `y`, so is every element before it. -/
theorem lt_countP_of_ascending (hl : l.Pairwise fun x y => N.lt y x = false) {j : Nat} (hj : j < l.length) {y : α}
    (hy : y ∈ l) (hlt : N.lt l[j] y = true) : j < l.countP (N.lt · y) := by
  have hfilled : (l.take (j + 1)).countP (N.lt · y) = (l.take (j + 1)).length := by
    rw [List.countP_eq_length]
    intro e he
    obtain ⟨i, hi, rfl⟩ := List.mem_iff_getElem.1 he
    rw [List.length_take] at hi
    rw [List.getElem_take]
    obtain hij | rfl : i < j ∨ i = j := by omega
    · have hle : N.lt l[j] l[i] = false := List.pairwise_iff_getElem.1 hl i j (by omega) hj hij
      refine (lt_or_lt_of_weakOrder h (List.getElem_mem hj) (List.getElem_mem _) hy hlt).resolve_left ?_
      simp [hle]
    · exact hlt
  rw [List.length_take, Nat.min_eq_left (by omega)] at hfilled
  exact hfilled.ge.trans (List.take_sublist (j + 1) l).countP_le

/-- Of two ascending arrangements of one window neither has a smaller element than the other in any place: too few elements
would be less than the greater one in the one arrangement, or too many in the other. -/
theorem lt_false_of_ascending {b : List α} (hb : l.Perm b) (hl : l.Pairwise fun x y => N.lt y x = false)
    (hbl : b.Pairwise fun x y => N.lt y x = false) {j : Nat} {x y : α} (hx : l[j]? = some x) (hy : b[j]? = some y) :
    N.lt x y = false := by
  obtain ⟨hj, rfl⟩ := List.getElem?_eq_some_iff.1 hx
  obtain ⟨hjb, rfl⟩ := List.getElem?_eq_some_iff.1 hy
  refine Bool.eq_false_iff.2 fun hlt => ?_
  have hmany := lt_countP_of_ascending h hl hj (hb.mem_iff.2 (List.getElem_mem hjb)) hlt
  have hfew := countP_lt_le_of_ascending ((weakOrder_perm hb).1 h) hbl hjb
  rw [hb.countP_eq] at hmany
  omega

end

/-- The sort answers an ascending arrangement of the window, and any other agrees with it place by place up to elements that
compare equal (rule R114). -/
theorem sortAsc_unique {α : Type} {N : Config.Numerics α} {a b : List α} (h : orders N a = true) (hb : b.Perm a)
    (hasc : ∀ (j : Nat) (x y : α), b[j]? = some x → b[j + 1]? = some y → N.lt y x = false) {j : Nat} {x y : α}
    (hx : (sortAsc N a)[j]? = some x) (hy : b[j]? = some y) : N.lt x y = false ∧ N.lt y x = false := by
  obtain ⟨-, hweak⟩ := Bool.and_eq_true_iff.1 h
  have hsort := sortAsc_perm N a
  have hsortWeak := (weakOrder_perm hsort).2 hweak
  have hbWeak := (weakOrder_perm hb).2 hweak
  have hbPairs := pairwise_of_neighbours hbWeak hasc
  have hboth := hsort.trans hb.symm
  exact ⟨lt_false_of_ascending hsortWeak hboth (sortAsc_pairwise hweak) hbPairs hx hy,
    lt_false_of_ascending hbWeak hboth.symm hbPairs (sortAsc_pairwise hweak) hy hx⟩

/-- Numbers of binary32 that compare equal are one number, or zeros (rule R114). -/
theorem eq_or_zeros_of_fLt_false {x y : Num32} (hx : fIsNaN x = false) (hy : fIsNaN y = false) (hlt : fLt x y = false)
    (hgt : fLt y x = false) : x = y ∨ fIsZero x = true ∧ fIsZero y = true := by
  rw [fLt_eq hx hy, decide_eq_false_iff_not] at hlt
  rw [fLt_eq hy hx, decide_eq_false_iff_not] at hgt
  refine or_iff_not_imp_left.2 fun hne => ?_
  obtain ⟨hx0, hy0, -⟩ := zeros_of_fKey_eq (by omega) hne
  exact ⟨hx0, hy0⟩

/-- Settles O31: the sort is ascending, and ascending arrangements of one window agree up to elements that compare equal. -/
theorem sortIsTheAscendingOrder : Obligations.SortIsTheAscendingOrder := by
  unfold Obligations.SortIsTheAscendingOrder
  have hasc {α : Type} {N : Config.Numerics α} {a : List α} (h : orders N a = true) (j : Nat) (x y : α)
      (hx : (sortAsc N a)[j]? = some x) (hy : (sortAsc N a)[j + 1]? = some y) : N.lt y x = false :=
    lt_false_of_pairwise (sortAsc_pairwise (Bool.and_eq_true_iff.1 h).2) hx hy
  refine ⟨fun α N a h => ⟨sortAsc_perm N a, hasc h, fun b hb hbAsc j x y => sortAsc_unique h hb hbAsc⟩,
    fun α N => orders_of_order, fun a hnan => ?_⟩
  have horders : orders binary32 a = true := by rw [orders_binary32, hnan, Bool.not_false]
  refine ⟨sortAsc_perm binary32 a, hasc horders, fun b hb hbAsc j x y hx hy => ?_⟩
  obtain ⟨hlt, hgt⟩ := sortAsc_unique horders hb hbAsc hx hy
  have hnumber (z : Num32) (hz : z ∈ a) : fIsNaN z = false := Bool.eq_false_iff.2 (List.any_eq_false.1 hnan z hz)
  exact eq_or_zeros_of_fLt_false (hnumber x ((sortAsc_perm binary32 a).mem_iff.1 (List.mem_of_getElem? hx)))
    (hnumber y (hb.mem_iff.1 (List.mem_of_getElem? hy))) hlt hgt

end Sys2Proof.Machine
end

section
/-! PROOFS. A step response through the even median of eight, over exact numbers (rule R115). -/

namespace Sys2Proof.Machine

open Sys2Proof

/-- Over exact numbers the sort answers the one ascending arrangement of the window (rule R114). -/
theorem sortAsc_exactNum_eq {a b : List ℚ} (hb : b.Perm a) (hasc : b.Pairwise (· ≤ ·)) : sortAsc exactNum a = b := by
  have hsort : (sortAsc exactNum a).Pairwise (· ≤ ·) :=
    (sortAsc_pairwise (Bool.and_eq_true_iff.1 (orders_exactNum a)).2).imp fun h => not_lt.1 (of_decide_eq_false h)
  exact ((sortAsc_perm exactNum a).trans hb.symm).eq_of_pairwise' hsort hasc

/-- A lower level followed by a higher one is ascending. -/
theorem pairwise_le_levels {lo hi : ℚ} (h : lo ≤ hi) (m n : Nat) :
    (List.replicate m lo ++ List.replicate n hi).Pairwise (· ≤ ·) := by
  simp only [List.pairwise_append, List.pairwise_replicate, List.mem_replicate]
  refine ⟨.inr le_rfl, .inr le_rfl, ?_⟩
  rintro x ⟨-, rfl⟩ y ⟨-, rfl⟩
  exact h

/-- Settles O33: the sorted window is the old level and then the new one, and the median of eight is the mean of its fifth and
sixth entries. -/
theorem evenMedianIsBiasedUpward : Obligations.EvenMedianIsBiasedUpward := by
  unfold Obligations.EvenMedianIsBiasedUpward
  intro lo hi k buf hlt hk hbuf
  rw [sortAsc_exactNum_eq (List.perm_append_comm.trans hbuf.symm) (pairwise_le_levels hlt.le (8 - k) k)]
  have hentry (i : Nat) (hi8 : i < 8) : (List.replicate (8 - k) lo ++ List.replicate k hi)[i]? =
      some (if i < 8 - k then lo else hi) := by
    split
    · rw [List.getElem?_append_left (by simpa), List.getElem?_replicate_of_lt ‹_›]
    · rw [List.getElem?_append_right (by simp; omega), List.length_replicate, List.getElem?_replicate_of_lt (by omega)]
  rw [medianOf_even (by decide) (hentry 4 (by decide)) (hentry 5 (by decide))]
  have hmean (x y : ℚ) : exactNum.div (exactNum.add x y) exactNum.two = (x + y) / 2 := rfl
  rw [hmean]
  obtain h | rfl | h : k ≤ 2 ∨ k = 3 ∨ 4 ≤ k := by omega
  · rw [if_pos (by omega), if_pos (by omega), if_pos h, add_self_div_two]
  · rfl
  · rw [if_neg (by omega), if_neg (by omega), if_neg (by omega), if_neg (by omega), add_self_div_two]

end Sys2Proof.Machine
end

section
/-! PROOFS. The value of a binary32 number, and the order of the values (rule R7). -/

namespace Sys2Proof.Machine

open Sys2Proof

/-- The value of a number is its units of `2 ^ -150`. -/
theorem fValue_eq_units (x : Num32) : fValue x = signedUnits x / 2 ^ 150 := by
  unfold fValue signedUnits magUnits
  split <;> push_cast <;> ring

/-- The magnitude bits as an exponent and a significand, the inverse of `magUnits_eq`. -/
theorem fMag_eq_exp_sig (x : Num32) :
    fMag x = (fExp x - 1) * 2 ^ 23 + fSig x ∧ (fExp x - 1 = 0 ∨ 2 ^ 23 ≤ fSig x) := by
  unfold fExp fSig
  split <;> omega

theorem fExp_pos (x : Num32) : 1 ≤ fExp x := Nat.le_max_left ..

/-- Greater magnitude bits are a greater magnitude. -/
theorem magUnits_lt_of_fMag_lt {x y : Num32} (h : fMag x < fMag y) : magUnits x < magUnits y := by
  obtain ⟨hx, hxnorm⟩ := fMag_eq_exp_sig x
  obtain ⟨hy, hynorm⟩ := fMag_eq_exp_sig y
  have hxsig := fSig_lt x
  have hysig := fSig_lt y
  have hxexp := fExp_pos x
  have hyexp := fExp_pos y
  obtain hexp | hexp : fExp x = fExp y ∨ fExp x + 1 ≤ fExp y := by omega
  · unfold magUnits
    rw [hexp]
    exact Nat.mul_lt_mul_of_pos_right (by omega) (Nat.two_pow_pos _)
  · calc
      magUnits x < 2 ^ 24 * 2 ^ fExp x := Nat.mul_lt_mul_of_pos_right hxsig (Nat.two_pow_pos _)
      _ = 2 ^ 23 * 2 ^ (fExp x + 1) := by ring
      _ ≤ magUnits y := Nat.mul_le_mul (by omega) (Nat.pow_le_pow_right (by decide) hexp)

theorem magUnits_lt_iff {x y : Num32} : magUnits x < magUnits y ↔ fMag x < fMag y := by
  refine ⟨fun h => ?_, magUnits_lt_of_fMag_lt⟩
  by_contra hge
  obtain hgt | heq := (not_lt.1 hge).lt_or_eq
  · exact absurd (magUnits_lt_of_fMag_lt hgt) h.not_gt
  · simp [magUnits, fSig, fExp, heq] at h

theorem magUnits_eq_zero_iff {x : Num32} : magUnits x = 0 ↔ fMag x = 0 := by
  have hzero : magUnits 0 = 0 := by decide
  have hmag : fMag 0 = 0 := by decide
  have h := magUnits_lt_iff (x := 0) (y := x)
  omega

/-- The place on the number line is ordered as the signed magnitude. -/
theorem signedUnits_lt_iff {x y : Num32} : signedUnits x < signedUnits y ↔ fKey x < fKey y := by
  have hlt := magUnits_lt_iff (x := x) (y := y)
  have hgt := magUnits_lt_iff (x := y) (y := x)
  have hx0 := magUnits_eq_zero_iff (x := x)
  have hy0 := magUnits_eq_zero_iff (x := y)
  unfold signedUnits fKey
  split <;> split <;> omega

/-- The values are ordered as the places on the number line. -/
theorem fValue_lt_iff {x y : Num32} : fValue x < fValue y ↔ fKey x < fKey y := by
  rw [fValue_eq_units, fValue_eq_units, div_lt_div_iff_of_pos_right (by positivity), Int.cast_lt, signedUnits_lt_iff]

/-- Settles O37: neither operand is a NaN, so `<f` compares the places on the number line. -/
theorem comparisonIsTheOrderOfValues : Obligations.ComparisonIsTheOrderOfValues := by
  unfold Obligations.ComparisonIsTheOrderOfValues
  refine ⟨fun a b ha hb => ?_, fun a b => fLt_of_nan⟩
  rw [fLt_eq (fIsNaN_of_finite ha) (fIsNaN_of_finite hb), decide_eq_true_eq, fValue_lt_iff]

/-- The integer part of a number that is not negative is the floor of its value. -/
theorem floor_fValue {x : Num32} (h : fNeg x = false) : ⌊fValue x⌋ = (fTrunc x : ℤ) := by
  have hunits : fValue x = (magUnits x : ℚ) / ((2 ^ 150 : ℕ) : ℚ) := by
    rw [fValue_eq_units, signedUnits, h]
    norm_num
  rw [hunits, Rat.floor_natCast_div_natCast]
  rfl

theorem fValue_65535 : fValue (fOfNat 65535) = 65535 := by
  have hunits : signedUnits (fOfNat 65535) = 65535 * 2 ^ 150 := by decide
  rw [fValue_eq_units, hunits]
  norm_num

/-- A number above 0 has no sign. -/
theorem fNeg_of_fLt_zero {x : Num32} (h : fLt (fOfNat 0) x = true) : fNeg x = false := by
  have hkey : fKey (fOfNat 0) = 0 := by decide
  simp only [fLt, Bool.and_eq_true, decide_eq_true_eq, hkey] at h
  obtain ⟨-, hpos⟩ := h
  by_contra hneg
  rw [fKey, if_pos (Bool.eq_true_of_not_eq_false hneg)] at hpos
  omega

/-- Below 65535 the integer part of a number without a sign is below 65535. -/
theorem fTrunc_lt_65535 {x : Num32} (hsign : fNeg x = false) (h : fLt x (fOfNat 65535) = true) :
    fTrunc x < 65535 := by
  simp only [fLt, Bool.and_eq_true, decide_eq_true_eq, ← fValue_lt_iff, fValue_65535] at h
  obtain ⟨-, htop⟩ := h
  have hfloor : ⌊fValue x⌋ < 65535 := Int.floor_lt.2 (by exact_mod_cast htop)
  rw [floor_fValue hsign] at hfloor
  omega

/-- Settles O39: the branches of `Q10` are the clauses, and between 0 and 65535 the tenfold is a positive number whose integer
part fits 16 bits. -/
theorem q10TruncatesAndSaturates : Obligations.Q10TruncatesAndSaturates := by
  unfold Obligations.Q10TruncatesAndSaturates
  intro p t
  have hbranches : fQ10 p = if fIsNaN t then 0 else if !fLt (fOfNat 0) t then 0 else
      if !fLt t (fOfNat 65535) then 65535 else BitVec.ofNat 16 (fTrunc t) := rfl
  refine ⟨fun hnan => ?_, fun hnan hlow => ?_, fun hnan hhigh => ?_, fun hlow hhigh => ?_⟩
  · rw [hbranches, if_pos hnan]
  · rw [hbranches, hnan, hlow]
    rfl
  · have hlow : fLt (fOfNat 0) t = true := by
      rw [fLt_eq hnan (by decide), decide_eq_false_iff_not] at hhigh
      rw [fLt_eq (by decide) hnan, decide_eq_true_eq]
      exact lt_of_lt_of_le (by decide) (not_lt.1 hhigh)
    rw [hbranches, hnan, hlow, hhigh]
    rfl
  · have hnan : fIsNaN t = false := by
      by_contra h
      rw [fLt_of_nan (.inr (Bool.eq_true_of_not_eq_false h))] at hlow
      cases hlow
    have hsign := fNeg_of_fLt_zero hlow
    have hbound := fTrunc_lt_65535 hsign hhigh
    have hvalue : (fQ10 p).toNat = fTrunc t := by
      rw [hbranches, hnan, hlow, hhigh]
      exact Nat.mod_eq_of_lt (by omega)
    rw [hvalue, floor_fValue hsign]
    exact ⟨rfl, by omega⟩

end Sys2Proof.Machine
end

section
/-! PROOFS. Where the models multiply by a zero: the advanced PH model at its pivot and the compensation at 25 (rules R133,
R136). -/

namespace Sys2Proof.Machine

open Sys2Proof

/-- A finite number less itself is +0 (rule R7). -/
theorem modelNum_sub_self {x : Num32} (h : fIsFinite x = true) : modelNum.sub x x = 0 := by
  have hsum : alignedSum x (fFlip x) = 0 := by
    have hunits := alignedSum_units x (fFlip x)
    rw [signedUnits_fFlip, add_neg_cancel] at hunits
    exact (mul_eq_zero.1 hunits).resolve_right (by positivity)
  have hsub : fSub x x = 0 := by
    rw [fSub_finite h h, addFinite]
    simp only [hsum, if_pos, fNeg_fFlip, Bool.and_not_self]
    rfl
  rw [modelNum_sub_finite (by rw [hsub]; decide), hsub]

/-- The product of two finite numbers (rule R7). -/
theorem fMul_finite {a b : Num32} (ha : fIsFinite a = true) (hb : fIsFinite b = true) :
    fMul a b = fPack (fNeg a != fNeg b) (roundMag (fSig a * fSig b) (fExp a + fExp b) 300) := by
  simp [fMul, fIsNaN_of_finite, fIsInf_of_finite, ha, hb]

/-- A finite number times +0 is a zero (rule R7). -/
theorem modelNum_mul_zero {x : Num32} (h : fIsFinite x = true) : ∃ neg, modelNum.mul x 0 = fPack neg 0 := by
  have hmul : fMul x 0 = fPack (fNeg x != fNeg 0) 0 := by
    have hzero : fSig 0 = 0 := by decide
    rw [fMul_finite h (by decide), hzero, Nat.mul_zero, roundMag_zero]
  refine ⟨fNeg x != fNeg 0, ?_⟩
  have hfin : fIsFinite (fMul x 0) = true := by
    rw [hmul]
    cases fNeg x <;> decide
  exact (modelResult_closed (leftOpen_finite hfin (by simp))).trans hmul

/-- Settles O42: the slope is multiplied by +0, and a zero of either sign leaves 7.0. -/
theorem advancedPivotReadsExactlySeven : Obligations.AdvancedPivotReadsExactlySeven := by
  unfold Obligations.AdvancedPivotReadsExactlySeven
  intro low mid high hmid hslope
  have hlower : ¬ modelNum.gt mid mid = true := by
    rw [show modelNum.gt mid mid = fLt mid mid from rfl, fLt_irrefl]
    exact Bool.false_ne_true
  obtain ⟨neg, hzero⟩ := modelNum_mul_zero hslope
  rw [xformPhAdv, if_neg hlower, modelNum_sub_self hmid, hzero]
  cases neg <;> decide

/-- Settles O43: the coefficient is multiplied by +0, and a zero of either sign leaves 1.0. -/
theorem compensationIsOneAtTwentyFive : Obligations.CompensationIsOneAtTwentyFive := by
  unfold Obligations.CompensationIsOneAtTwentyFive
  intro c hcoeff
  have htwentyFive : modelNum.twentyFive = 0x41C80000 := by decide
  obtain ⟨neg, hzero⟩ := modelNum_mul_zero hcoeff
  rw [tdsComp, htwentyFive, modelNum_sub_self (by decide), hzero]
  cases neg <;> decide

end Sys2Proof.Machine
end

section
/-! PROOFS. What the rounding of binary32 answers, for any scale `2 ^ b` of its operand: a multiple of the unit at most half a
unit away, which no number is nearer than (rule R7, decision D6). `roundExp` and `roundUnits` are the scale 150, that of
the sums; a product has the scale 300, a quotient 305. -/

namespace Sys2Proof.Machine

open Sys2Proof

/-- The number `m` can stand for `ρ` in a rounding to 24 bits: it is `ρ`, or it is odd, has at least 26 bits, and `ρ` lies
strictly between its even neighbours. -/
def StandsFor (m : Nat) (ρ : ℚ) : Prop :=
  (m : ℚ) = ρ ∨ 2 ^ 25 ≤ m ∧ m % 2 = 1 ∧ (m : ℚ) - 1 < ρ ∧ ρ < m + 1

/-- What stands for `ρ` has its binade. -/
theorem StandsFor.binade {m : Nat} {ρ : ℚ} (h : StandsFor m ρ) (hm : m ≠ 0) :
    2 ^ Nat.log2 m ≤ ρ ∧ ρ < 2 ^ (Nat.log2 m + 1) := by
  have hlo := Nat.log2_self_le hm
  have hhi := Nat.lt_log2_self (n := m)
  obtain rfl | ⟨hbits, hodd, hgt, hlt⟩ := h
  · exact ⟨by exact_mod_cast hlo, by exact_mod_cast hhi⟩
  · have hlog : Nat.log2 m ≠ 0 := by
      have := (Nat.le_log2 hm).2 hbits
      omega
    have heven : 2 ^ Nat.log2 m % 2 = 0 := by
      obtain ⟨k, hk⟩ := Nat.exists_eq_succ_of_ne_zero hlog
      rw [hk, Nat.pow_succ, Nat.mul_mod_left]
    rw [Nat.pow_succ] at hhi
    have hlo' : ((2 ^ Nat.log2 m + 1 : ℕ) : ℚ) ≤ m := Nat.cast_le.2 (by omega)
    have hhi' : ((m + 1 : ℕ) : ℚ) ≤ ((2 ^ Nat.log2 m * 2 : ℕ) : ℚ) := Nat.cast_le.2 (by omega)
    push_cast at hlo' hhi'
    rw [pow_succ]
    constructor <;> linarith

/-- The quotient by `2 ^ d` is the nearest to `ρ / 2 ^ d` as well, where an odd `m` that is not `ρ` loses two bits at least:
no half of the quotient's unit lies between `m` and `ρ`. -/
theorem StandsFor.roundShift_near {m d : Nat} {ρ : ℚ} (h : StandsFor m ρ) (hd : 2 ^ 25 ≤ m → 2 ≤ d) :
    |(roundShift m d : ℚ) * 2 ^ d - ρ| ≤ 2 ^ d / 2 := by
  obtain ⟨hlo, hhi⟩ := Sys2Proof.Machine.roundShift_near m d
  rw [abs_le]
  obtain rfl | ⟨hbits, hodd, hgt, hlt⟩ := h
  · have hlo' : 2 * ((roundShift m d : ℚ) * 2 ^ d) ≤ 2 * m + 2 ^ d := by exact_mod_cast hlo
    have hhi' : 2 * (m : ℚ) ≤ 2 * ((roundShift m d : ℚ) * 2 ^ d) + 2 ^ d := by exact_mod_cast hhi
    constructor <;> linarith
  · obtain ⟨k, rfl⟩ := Nat.exists_eq_add_of_le' (hd hbits)
    have hpow : (2 : ℕ) ^ (k + 2) = 4 * 2 ^ k := by ring
    have hmul : roundShift m (k + 2) * 2 ^ (k + 2) = 4 * (roundShift m (k + 2) * 2 ^ k) := by ring
    have hlo' : roundShift m (k + 2) * 2 ^ (k + 2) + 1 ≤ m + 2 ^ (k + 1) := by omega
    have hhi' : m + 1 ≤ roundShift m (k + 2) * 2 ^ (k + 2) + 2 ^ (k + 1) := by omega
    have hlo'' : (roundShift m (k + 2) : ℚ) * 2 ^ (k + 2) + 1 ≤ m + 2 ^ (k + 1) := by exact_mod_cast hlo'
    have hhi'' : (m : ℚ) + 1 ≤ (roundShift m (k + 2) : ℚ) * 2 ^ (k + 2) + 2 ^ (k + 1) := by exact_mod_cast hhi'
    have hhalf : (2 : ℚ) ^ (k + 2) = 2 * 2 ^ (k + 1) := by ring
    constructor <;> linarith

/-- The exponent `roundMag` computes for `m * 2 ^ e / 2 ^ b`, cut at 0: the unit of the result is `2 ^ (magExp m e b - 149)`. -/
def magExp (m e b : Nat) : Nat := Nat.log2 m + 126 + e - b

/-- The significand it computes, counted in the unit. -/
def magSig (m e b : Nat) : Nat :=
  if 149 + e ≤ magExp m e b + b then roundShift m (magExp m e b + b - (149 + e))
  else m * 2 ^ (149 + e - (magExp m e b + b))

theorem roundMag_eq_exp_sig {m : Nat} (hm : m ≠ 0) (e b : Nat) :
    roundMag m e b = min (magExp m e b * 2 ^ 23 + magSig m e b) infMag := by
  rw [roundMag, if_neg hm]
  rfl

/-- The weight of the last bit of a number with exponent `q`. -/
def ulp (q : Nat) : ℚ := 2 ^ ((q : ℤ) - 149)

theorem ulp_pos (q : Nat) : 0 < ulp q := by
  unfold ulp
  positivity

section

variable {m : Nat} {ρ : ℚ} (h : StandsFor m ρ) (hm : m ≠ 0) (e b : Nat)
include h hm

/-- The significand is off by at most half a unit (rule R7: one rounding, to nearest). -/
theorem StandsFor.magSig_near :
    |(magSig m e b : ℚ) * ulp (magExp m e b) - ρ * 2 ^ ((e : ℤ) - b)| ≤ ulp (magExp m e b) / 2 := by
  have hbits (hlarge : 2 ^ 25 ≤ m) : 25 ≤ Nat.log2 m := (Nat.le_log2 hm).2 hlarge
  have hexp : magExp m e b = Nat.log2 m + 126 + e - b := rfl
  have hscale : (0 : ℚ) < 2 ^ ((e : ℤ) - b) := by positivity
  unfold magSig
  split
  · next hguard =>
    obtain ⟨d, hd⟩ := Nat.exists_eq_add_of_le hguard
    have hunit : ulp (magExp m e b) = 2 ^ d * 2 ^ ((e : ℤ) - b) := by
      rw [ulp, ← zpow_natCast, ← zpow_add₀ two_ne_zero]
      congr 1
      omega
    rw [hd, Nat.add_sub_cancel_left, hunit]
    have hnear := h.roundShift_near (d := d) (fun hlarge => by have := hbits hlarge; omega)
    calc
      |(roundShift m d : ℚ) * (2 ^ d * 2 ^ ((e : ℤ) - b)) - ρ * 2 ^ ((e : ℤ) - b)|
        = |(roundShift m d : ℚ) * 2 ^ d - ρ| * 2 ^ ((e : ℤ) - b) := by
          rw [← mul_assoc, ← sub_mul, abs_mul, abs_of_pos hscale]
      _ ≤ 2 ^ d / 2 * 2 ^ ((e : ℤ) - b) := mul_le_mul_of_nonneg_right hnear hscale.le
      _ = 2 ^ d * 2 ^ ((e : ℤ) - b) / 2 := by ring
  · next hguard =>
    obtain ⟨k, hk⟩ := Nat.exists_eq_add_of_lt (not_le.1 hguard)
    have hexact : (m : ℚ) = ρ := h.resolve_right fun ⟨hlarge, _⟩ => by have := hbits hlarge; omega
    have hunit : (2 : ℚ) ^ (k + 1) * ulp (magExp m e b) = 2 ^ ((e : ℤ) - b) := by
      rw [ulp, ← zpow_natCast, ← zpow_add₀ two_ne_zero]
      congr 1
      omega
    rw [show 149 + e - (magExp m e b + b) = k + 1 by omega, ← hexact]
    push_cast
    rw [mul_assoc, hunit, sub_self, abs_zero]
    exact (half_pos (ulp_pos _)).le

/-- The exponent is that of the binade the operand lies in, cut at 0. -/
theorem StandsFor.magExp_binade :
    ρ * 2 ^ ((e : ℤ) - b) < 2 ^ 24 * ulp (magExp m e b) ∧
      (magExp m e b = 0 ∨ 2 ^ 23 * ulp (magExp m e b) ≤ ρ * 2 ^ ((e : ℤ) - b)) := by
  have hexp : magExp m e b = Nat.log2 m + 126 + e - b := rfl
  obtain ⟨hlo, hhi⟩ := h.binade hm
  have hscale : (0 : ℚ) < 2 ^ ((e : ℤ) - b) := by positivity
  constructor
  · calc
      ρ * 2 ^ ((e : ℤ) - b) < 2 ^ (Nat.log2 m + 1) * 2 ^ ((e : ℤ) - b) := mul_lt_mul_of_pos_right hhi hscale
      _ = 2 ^ (((Nat.log2 m + 1 : ℕ) : ℤ) + ((e : ℤ) - b)) := by rw [← zpow_natCast, ← zpow_add₀ two_ne_zero]
      _ ≤ 2 ^ (((24 : ℕ) : ℤ) + ((magExp m e b : ℤ) - 149)) := zpow_le_zpow_right₀ one_le_two (by omega)
      _ = 2 ^ 24 * ulp (magExp m e b) := by rw [ulp, zpow_add₀ two_ne_zero, zpow_natCast]
  · refine or_iff_not_imp_left.2 fun hcut => ?_
    calc
      2 ^ 23 * ulp (magExp m e b) = 2 ^ (((23 : ℕ) : ℤ) + ((magExp m e b : ℤ) - 149)) := by
        rw [ulp, zpow_add₀ two_ne_zero, zpow_natCast]
      _ = 2 ^ ((Nat.log2 m : ℤ) + ((e : ℤ) - b)) := by
        congr 1
        omega
      _ = 2 ^ Nat.log2 m * 2 ^ ((e : ℤ) - b) := by rw [zpow_add₀ two_ne_zero, zpow_natCast]
      _ ≤ ρ * 2 ^ ((e : ℤ) - b) := mul_le_mul_of_nonneg_right hlo hscale.le

/-- The significand has 24 bits, or is the next power of two; it has fewer only where the exponent is cut. -/
theorem StandsFor.magSig_range : magSig m e b ≤ 2 ^ 24 ∧ (magExp m e b = 0 ∨ 2 ^ 23 ≤ magSig m e b) := by
  have hpos := ulp_pos (magExp m e b)
  obtain ⟨hlt, hge⟩ := h.magExp_binade hm e b
  obtain ⟨hhi, hlo⟩ := abs_le.1 (h.magSig_near hm e b)
  constructor
  · by_contra hgt
    have hgt : ((2 ^ 24 + 1 : ℕ) : ℚ) ≤ magSig m e b := Nat.cast_le.2 (not_le.1 hgt)
    push_cast at hgt
    nlinarith
  · refine hge.imp_right fun hge => ?_
    by_contra hgt
    have hgt : ((magSig m e b + 1 : ℕ) : ℚ) ≤ ((2 ^ 23 : ℕ) : ℚ) := Nat.cast_le.2 (not_le.1 hgt)
    push_cast at hgt
    nlinarith

end

/-- The sign of a number as a factor. -/
def signFactor (neg : Bool) : ℚ := if neg then -1 else 1

theorem signFactor_bne (a b : Bool) : signFactor (a != b) = signFactor a * signFactor b := by
  cases a <;> cases b <;> norm_num [signFactor]

theorem abs_signFactor_mul (neg : Bool) (x : ℚ) : |signFactor neg * x| = |x| := by
  cases neg <;> simp [signFactor]

theorem signFactor_mul_self (neg : Bool) : signFactor neg * signFactor neg = 1 := by
  cases neg <;> norm_num [signFactor]

theorem div_signFactor (x : ℚ) (neg : Bool) : x / signFactor neg = x * signFactor neg := by
  cases neg <;> simp [signFactor, div_neg]

/-- The value of a number by its sign, significand and exponent (rule R7). -/
theorem fValue_eq_sig_exp (x : Num32) : fValue x = signFactor (fNeg x) * (fSig x * 2 ^ ((fExp x : ℤ) - 150)) := by
  rw [fValue, signFactor, zpow_sub₀ two_ne_zero, zpow_natCast, zpow_ofNat]
  ring

/-- The value of a number by its sign and magnitude. -/
theorem fValue_eq_signFactor_mul (x : Num32) : fValue x = signFactor (fNeg x) * |fValue x| := by
  have hnonneg : (0 : ℚ) ≤ fSig x * 2 ^ ((fExp x : ℤ) - 150) := by positivity
  rw [fValue_eq_sig_exp, abs_signFactor_mul, abs_of_nonneg hnonneg]

/-- The magnitude in the unit of its rounding. -/
theorem abs_fValue_eq_ulp {x : Num32} {q u : Nat} (h : magUnits x = u * 2 ^ (q + 1)) : |fValue x| = u * ulp q := by
  have habs : |fValue x| = (magUnits x : ℚ) / 2 ^ 150 := by
    rw [fValue_eq_sig_exp, abs_signFactor_mul, abs_of_nonneg (by positivity), magUnits, zpow_sub₀ two_ne_zero, zpow_natCast]
    push_cast
    norm_num
    ring
  rw [habs, h, ulp, zpow_sub₀ two_ne_zero, zpow_natCast]
  push_cast
  norm_num
  ring

/-- What is at most half a unit from a multiple of the unit is no nearer to another. -/
theorem near_multiple {u r : ℚ} (hu : 0 < u) {n : ℤ} (h : |n * u - r| ≤ u / 2) (z : ℤ) : |n * u - r| ≤ |z * u - r| := by
  obtain rfl | hne := eq_or_ne z n
  · exact le_rfl
  · have hone : (1 : ℚ) ≤ |(z : ℚ) - n| := by
      exact_mod_cast Int.one_le_abs (sub_ne_zero.2 hne)
    have hapart : u ≤ |(z : ℚ) - n| * u := le_mul_of_one_le_left hu.le hone
    have htriangle : |(z : ℚ) - n| * u ≤ |z * u - r| + |n * u - r| := by
      rw [← abs_of_pos hu, ← abs_mul, abs_of_pos hu, show ((z : ℚ) - n) * u = (z * u - r) - (n * u - r) by ring]
      exact abs_sub _ _
    linarith

/-- No number is nearer to `r` than the multiple `n` of the unit at most half a unit away: numbers of a smaller exponent lie
below the binade of `r`. -/
theorem near_number {q : Nat} {n : ℤ} {r : ℚ} (hnear : |n * ulp q - r| ≤ ulp q / 2)
    (hbinade : q = 0 ∨ 2 ^ 23 * ulp q ≤ r) {t : ℚ} {y : Num32} (ht : |t| = |fValue y|) : |n * ulp q - r| ≤ |t - r| := by
  have hpos := ulp_pos q
  obtain hfine | hcoarse := Nat.lt_or_ge (fExp y) (q + 1)
  · have hexp := fExp_pos y
    have hlow := hbinade.resolve_left (by omega)
    have hsmall : |fValue y| ≤ 2 ^ 23 * ulp q := by
      have hsig : (fSig y : ℚ) ≤ 2 ^ 24 := by exact_mod_cast (fSig_lt y).le
      rw [fValue_eq_sig_exp, abs_signFactor_mul, abs_of_nonneg (by positivity)]
      calc
        (fSig y : ℚ) * 2 ^ ((fExp y : ℤ) - 150) ≤ 2 ^ 24 * 2 ^ ((q : ℤ) - 150) :=
          mul_le_mul hsig (zpow_le_zpow_right₀ one_le_two (by omega)) (by positivity) (by positivity)
        _ = 2 ^ 23 * ulp q := by
          rw [ulp, show (q : ℤ) - 149 = (q - 150) + 1 by ring, zpow_add_one₀ two_ne_zero]
          ring
    have hle : t ≤ 2 ^ 23 * ulp q := (le_abs_self t).trans (ht.trans_le hsmall)
    calc
      |n * ulp q - r| ≤ |((2 ^ 23 : ℤ) : ℚ) * ulp q - r| := near_multiple hpos hnear _
      _ ≤ |t - r| := by
        push_cast
        rw [abs_of_nonpos (by linarith), abs_of_nonpos (by linarith)]
        linarith
  · obtain ⟨k, hk⟩ := Nat.exists_eq_add_of_le hcoarse
    have hmultiple : |fValue y| = ((fSig y * 2 ^ k : ℕ) : ℚ) * ulp q :=
      abs_fValue_eq_ulp (by rw [magUnits, hk, Nat.pow_add]; ring)
    rw [hmultiple] at ht
    obtain rfl | rfl := eq_or_eq_neg_of_abs_eq ht
    · exact near_multiple hpos hnear ((fSig y * 2 ^ k : ℕ) : ℤ)
    · have := near_multiple hpos hnear (-((fSig y * 2 ^ k : ℕ) : ℤ))
      push_cast at this ⊢
      rwa [← neg_mul]

/-- No number is nearer to an exact result than the finite number its rounding gives (rule R7: one rounding, to nearest). -/
theorem fValue_nearest {x : Num32} {m e b : Nat} {ρ v : ℚ} (hmag : fMag x = roundMag m e b) (hfin : fIsFinite x = true)
    (hρ : StandsFor m ρ) (hv : v = signFactor (fNeg x) * (ρ * 2 ^ ((e : ℤ) - b))) (y : Num32) :
    |fValue x - v| ≤ |fValue y - v| := by
  by_cases hm : m = 0
  · have hρ0 : ρ = 0 := by
      obtain h | ⟨h, -⟩ := hρ
      · rw [← h, hm, Nat.cast_zero]
      · omega
    have hx0 : fValue x = 0 := by
      rw [hm, roundMag_zero, ← magUnits_eq_zero_iff] at hmag
      simp [fValue_eq_units, signedUnits, hmag]
    rw [hv, hρ0, hx0]
    simp
  · have hfields := roundMag_eq_exp_sig hm e b
    have hfinite : fMag x < infMag := of_decide_eq_true hfin
    rw [← hmag] at hfields
    have hfields : fMag x = magExp m e b * 2 ^ 23 + magSig m e b := by omega
    obtain ⟨hle, hnorm⟩ := hρ.magSig_range hm e b
    obtain ⟨-, hbinade⟩ := hρ.magExp_binade hm e b
    have habs : |fValue x| = ((magSig m e b : ℤ) : ℚ) * ulp (magExp m e b) :=
      abs_fValue_eq_ulp (magUnits_eq hfields hle hnorm)
    have hnear := near_number (n := magSig m e b) (hρ.magSig_near hm e b) hbinade
      (abs_signFactor_mul (fNeg x) (fValue y))
    calc
      |fValue x - v| = |signFactor (fNeg x) * |fValue x| - v| := by rw [← fValue_eq_signFactor_mul]
      _ = |(|fValue x| - ρ * 2 ^ ((e : ℤ) - b))| := by rw [hv, ← mul_sub, abs_signFactor_mul]
      _ ≤ |signFactor (fNeg x) * fValue y - ρ * 2 ^ ((e : ℤ) - b)| := by rwa [habs]
      _ = |fValue y - v| := by
        rw [← abs_signFactor_mul (fNeg x), mul_sub, ← mul_assoc, signFactor_mul_self, one_mul, hv]

end Sys2Proof.Machine
end

section
/-! PROOFS. The four operations of binary32 are each rounded once to a nearest number, and the records a configuration selects
compute with them (rule R7, decision D6). -/

namespace Sys2Proof.Machine

open Sys2Proof

theorem fValue_fFlip (x : Num32) : fValue (fFlip x) = -fValue x := by
  rw [fValue_eq_units, fValue_eq_units, signedUnits_fFlip]
  push_cast
  ring

/-- A finite sum is a nearest number to the exact one. -/
theorem addFinite_nearest {a b : Num32} (hfin : fIsFinite (addFinite a b) = true) (y : Num32) :
    |fValue (addFinite a b) - (fValue a + fValue b)| ≤ |fValue y - (fValue a + fValue b)| := by
  refine fValue_nearest (fMag_addFinite a b) hfin (.inl rfl) ?_ y
  have hsum : fValue a + fValue b = ((signedUnits a + signedUnits b : ℤ) : ℚ) / 2 ^ 150 := by
    rw [fValue_eq_units, fValue_eq_units]
    push_cast
    ring
  have hmag : ((alignedSum a b).natAbs : ℚ) * 2 ^ (((min (fExp a) (fExp b) : ℕ) : ℤ) - (150 : ℕ)) =
      ((signedUnits a + signedUnits b).natAbs : ℚ) / 2 ^ 150 := by
    rw [← natAbs_alignedSum, zpow_sub₀ two_ne_zero, zpow_natCast, zpow_natCast]
    push_cast
    ring
  have hsign : ((signedUnits a + signedUnits b : ℤ) : ℚ) =
      signFactor (fNeg (addFinite a b)) * ((signedUnits a + signedUnits b).natAbs : ℚ) := by
    by_cases hzero : signedUnits a + signedUnits b = 0
    · simp [hzero]
    · rw [fNeg_addFinite hzero, Nat.cast_natAbs, Int.cast_abs, signFactor]
      split
      · next hneg => rw [abs_of_neg (Int.cast_lt_zero.2 (of_decide_eq_true hneg)), neg_one_mul, neg_neg]
      · next hneg => rw [abs_of_nonneg (Int.cast_nonneg (not_lt.1 fun h => hneg (decide_eq_true h))), one_mul]
  rw [hsum, hmag, hsign, mul_div_assoc]

theorem fMag_fPack_roundMag (neg : Bool) (m e b : Nat) : fMag (fPack neg (roundMag m e b)) = roundMag m e b :=
  fMag_fPack ((roundMag_le m e b).trans_lt (by decide))

theorem fNeg_fPack_roundMag (neg : Bool) (m e b : Nat) : fNeg (fPack neg (roundMag m e b)) = neg :=
  fNeg_fPack ((roundMag_le m e b).trans_lt (by decide))

/-- A finite product is a nearest number to the exact one. -/
theorem fMul_nearest {a b : Num32} (ha : fIsFinite a = true) (hb : fIsFinite b = true)
    (hfin : fIsFinite (fMul a b) = true) (y : Num32) :
    |fValue (fMul a b) - fValue a * fValue b| ≤ |fValue y - fValue a * fValue b| := by
  rw [fMul_finite ha hb] at hfin ⊢
  refine fValue_nearest (fMag_fPack_roundMag ..) hfin (.inl rfl) ?_ y
  have hscale : (2 : ℚ) ^ (((fExp a + fExp b : ℕ) : ℤ) - (300 : ℕ)) =
      2 ^ ((fExp a : ℤ) - 150) * 2 ^ ((fExp b : ℤ) - 150) := by
    rw [← zpow_add₀ two_ne_zero]
    congr 1
    omega
  rw [fNeg_fPack_roundMag, signFactor_bne, hscale, fValue_eq_sig_exp, fValue_eq_sig_exp]
  push_cast
  ring

/-- The quotient of the significands to 50 more bits, with its last bit for a remainder, stands for the exact one. -/
theorem stickyQuotient_standsFor {m n : Nat} (hn : n ≠ 0) (hlt : n < 2 ^ 24) :
    StandsFor (stickyQuotient m n) (2 ^ 51 * (m / n)) := by
  have hpos : (0 : ℚ) < n := Nat.cast_pos.2 (Nat.pos_of_ne_zero hn)
  have hexact : (2 : ℚ) ^ 51 * (m / n) = 2 * ((m * 2 ^ 50 : ℕ) : ℚ) / n := by
    push_cast
    ring
  rw [hexact, stickyQuotient]
  have hdiv := Nat.div_add_mod' (m * 2 ^ 50) n
  have hrem := Nat.mod_lt (m * 2 ^ 50) (Nat.pos_of_ne_zero hn)
  split
  · next hzero =>
    left
    rw [hzero, Nat.add_zero] at hdiv
    generalize m * 2 ^ 50 / n = Q at *
    rw [← hdiv]
    push_cast
    field_simp
    ring
  · next hrest =>
    right
    have hm : 1 ≤ m := by
      by_contra h
      simp [show m = 0 by omega] at hrest
    have hlarge : 2 ^ 26 ≤ m * 2 ^ 50 / n := by
      rw [Nat.le_div_iff_mul_le (Nat.pos_of_ne_zero hn)]
      omega
    have hgt : ((m * 2 ^ 50 / n * n : ℕ) : ℚ) < ((m * 2 ^ 50 : ℕ) : ℚ) := Nat.cast_lt.2 (by omega)
    have hlt : ((m * 2 ^ 50 : ℕ) : ℚ) < (((m * 2 ^ 50 / n + 1) * n : ℕ) : ℚ) := by
      rw [Nat.add_mul]
      exact Nat.cast_lt.2 (by omega)
    generalize m * 2 ^ 50 / n = Q at *
    generalize m * 2 ^ 50 = M at *
    push_cast at hgt hlt ⊢
    refine ⟨by omega, by omega, ?_, ?_⟩
    · rw [lt_div_iff₀ hpos]
      linarith
    · rw [div_lt_iff₀ hpos]
      linarith

/-- The significand of a number that is no zero is not 0. -/
theorem fSig_ne_zero {x : Num32} (h : fIsZero x = false) : fSig x ≠ 0 := by
  intro hsig
  have hmag : fMag x = 0 := magUnits_eq_zero_iff.1 (by rw [magUnits, hsig, Nat.zero_mul])
  rw [fIsZero, hmag] at h
  cases h

theorem fExp_le_of_finite {x : Num32} (h : fIsFinite x = true) : fExp x ≤ 254 := by
  have hmag : fMag x < 0x7F800000 := of_decide_eq_true h
  unfold fExp
  omega

/-- The quotient of two finite numbers, the divisor no zero (rule R7). -/
theorem fDiv_finite {a b : Num32} (ha : fIsFinite a = true) (hb : fIsFinite b = true) (hzero : fIsZero b = false) :
    fDiv a b =
      fPack (fNeg a != fNeg b) (roundMag (stickyQuotient (fSig a) (fSig b)) (fExp a + 254 - fExp b) 305) := by
  simp [fDiv, fIsNaN_of_finite, fIsInf_of_finite, ha, hb, hzero]

/-- A finite quotient by a number that is no zero is a nearest number to the exact one. -/
theorem fDiv_nearest {a b : Num32} (ha : fIsFinite a = true) (hb : fIsFinite b = true) (hzero : fIsZero b = false)
    (hfin : fIsFinite (fDiv a b) = true) (y : Num32) :
    |fValue (fDiv a b) - fValue a / fValue b| ≤ |fValue y - fValue a / fValue b| := by
  rw [fDiv_finite ha hb hzero] at hfin ⊢
  refine fValue_nearest (fMag_fPack_roundMag ..) hfin (stickyQuotient_standsFor (fSig_ne_zero hzero) (fSig_lt b)) ?_ y
  have hexp := fExp_le_of_finite hb
  have hscale : (2 : ℚ) ^ 51 * 2 ^ (((fExp a + 254 - fExp b : ℕ) : ℤ) - (305 : ℕ)) =
      2 ^ ((fExp a : ℤ) - 150) / 2 ^ ((fExp b : ℤ) - 150) := by
    rw [← zpow_natCast, ← zpow_add₀ two_ne_zero, ← zpow_sub₀ two_ne_zero]
    congr 1
    omega
  rw [fNeg_fPack_roundMag, signFactor_bne, fValue_eq_sig_exp, fValue_eq_sig_exp, mul_div_mul_comm, mul_div_mul_comm,
    div_signFactor, ← hscale]
  ring

/-- What U3 leaves open: a division by zero, a NaN, and an overflow. -/
theorem leftOpen_iff (op : ArithOp) (a b r : Num32) : leftOpen op a b r = true ↔
    (op = .div ∧ fIsZero b = true) ∨ fIsNaN r = true ∨ (fIsInf r = true ∧ fIsInf a = false ∧ fIsInf b = false) := by
  simp [leftOpen, and_assoc, or_assoc]

/-- Settles O38: each operation packs one rounding of its exact result, the models take it but where U3 leaves it open, and the
configuration selects the records. -/
theorem arithmeticRoundsToNearest : Obligations.ArithmeticRoundsToNearest := by
  unfold Obligations.ArithmeticRoundsToNearest
  refine ⟨fun a b x ha hb _ => ⟨fun hfin => ?_, fun hfin => ?_, fun hfin => fMul_nearest ha hb hfin x,
      fun hzero hfin => fDiv_nearest ha hb hzero hfin x⟩,
    leftOpen_iff, fun a b => ⟨rfl, rfl, rfl, rfl⟩, rfl,
    fun c hnum hq => ⟨cfgNum_binary32 hnum hq, cfgModelNum_binary32 hnum hq⟩,
    fun c hnum hq => ⟨cfgNum_exact hnum hq, cfgModelNum_exact hnum hq⟩⟩
  · rw [fAdd_finite ha hb] at hfin ⊢
    exact addFinite_nearest hfin x
  · rw [fSub_finite ha hb] at hfin ⊢
    rw [sub_eq_add_neg (fValue a), ← fValue_fFlip]
    exact addFinite_nearest hfin x

end Sys2Proof.Machine
end
